-- ==== Sys2Proof/Word.lean ====
section
/-! DEFINITION. Word.lean: the bit-vector types of the machine and their plainest arithmetic
(`00_scope.md` R7, R11, R12; `10_state.md` R32 to R35). -/
namespace Sys2Proof

/-- A byte of memory or a byte register. -/
abbrev Byte := BitVec 8
/-- A word: register, program counter, address, port number. -/
abbrev Word := BitVec 16
/-- A long: a register pair or a two-word memory operand (`10_state.md` R34). -/
abbrev Long := BitVec 32
/-- A quad: four registers (`10_state.md` R35). -/
abbrev Quad := BitVec 64
/-- A 4-bit register field (`10_state.md` R30). -/
abbrev Reg := BitVec 4

/-- Operand widths: byte, word, long (`20_memory.md` R91). -/
inductive Size where
  | b | w | l
  deriving DecidableEq, Repr

/-- Width in bits. -/
abbrev Size.bits : Size → Nat
  | .b => 8
  | .w => 16
  | .l => 32

/-- Width in bytes, as an address step. -/
def Size.bytes : Size → Word
  | .b => 1
  | .w => 2
  | .l => 4

/-- A value of a given width. -/
abbrev Size.Val (z : Size) := BitVec z.bits

/-- The two port spaces (`20_memory.md` R80). -/
inductive IoSpace where
  | std | special
  deriving DecidableEq, Repr

/-- The two memory spaces (`20_memory.md` R80). -/
inductive Space where
  | prog | data
  deriving DecidableEq, Repr

end Sys2Proof
end

