-- ==== Sys2Proof/Syntax/Forms.lean ====
section
/-! DEFINITION. Syntax/Forms.lean: the operand forms of the instructions (`30_encoding.md` R112 to R121),
one constructor per addressing mode. -/
namespace Sys2Proof

/-- The condition codes, in the order of their 4-bit values (`30_encoding.md` R125). -/
inductive Cc where
  | f | lt | le | ule | ov | mi | eq | c | t | ge | gt | ugt | nov | pl | ne | nc
  deriving DecidableEq, Repr

/-- A memory operand of mode class 00 or 01 (`30_encoding.md` R112): IR, DA or X. -/
inductive MemOp where
  | ir (a : Reg)
  | da (addr : Word)
  | x  (addr : Word) (a : Reg)
  deriving DecidableEq, Repr

/-- A register or memory operand: R, IR, DA or X. -/
inductive RegMem where
  | reg (n : Reg)
  | mem (m : MemOp)
  deriving DecidableEq, Repr

/-- A source operand of width `z`: R, IM, IR, DA or X. -/
inductive Src (z : Size) where
  | reg (n : Reg)
  | imm (k : z.Val)
  | mem (m : MemOp)
  deriving DecidableEq, Repr

/-- The based forms BA (base register and displacement) and BX (base and index registers). -/
inductive Based where
  | ba (a : Reg) (disp : Word)
  | bx (a x : Reg)
  deriving DecidableEq, Repr

/-- The source of LD, LDB, LDL (`40_data_movement.md` R201 to R203). -/
inductive LdSrc (z : Size) where
  | src   (o : Src z)
  | based (o : Based)
  deriving DecidableEq, Repr

/-- The destination of the stores LD, LDB, LDL (`40_data_movement.md` R204 to R206). -/
inductive StDst where
  | mem   (m : MemOp)
  | based (o : Based)
  deriving DecidableEq, Repr

/-- The source of LDA (`40_data_movement.md` R215): DA, X, BA or BX. -/
inductive LaSrc where
  | da    (addr : Word)
  | x     (addr : Word) (a : Reg)
  | based (o : Based)
  deriving DecidableEq, Repr

/-- The control registers LDCTL names (`45_system.md` R440). -/
inductive Ctl where
  | fcw | refresh | psap | nsp
  deriving DecidableEq, Repr

/-- The first bytes of the extended-processor instructions (`30_encoding.md` R128). -/
inductive EpuPage where
  | p0E | p0F | p4E | p4F | p8E | p8F
  deriving DecidableEq, Repr

end Sys2Proof
end

