-- ==== Sys2Proof/Syntax.lean ====
section
/-! DEFINITION. Syntax.lean: the instructions, one constructor for each mnemonic and rule of
`opcode_table.json`; rows that differ only in the addressing mode of one operand are one constructor whose operand
has one constructor per mode (DESIGN CHOICE, log 15). -/
namespace Sys2Proof

/-- An instruction with its operands in assembler order, destination first (`30_encoding.md` R130). -/
inductive Instr where
  -- Data movement (`40_data_movement.md`)
  /-- LD, R201. -/
  | ld (d : Reg) (src : LdSrc .w)
  /-- LDB, R202. -/
  | ldb (d : Reg) (src : LdSrc .b)
  /-- LDB, short immediate form, R202. -/
  | ldbShort (d : Reg) (k : Byte)
  /-- LDL, R203. -/
  | ldl (d : Reg) (src : LdSrc .l)
  /-- LD, store, R204. -/
  | ldSt (dst : StDst) (s : Reg)
  /-- LDB, store, R205. -/
  | ldbSt (dst : StDst) (s : Reg)
  /-- LDL, store, R206. -/
  | ldlSt (dst : StDst) (s : Reg)
  /-- LD, immediate to memory, R207. -/
  | ldImm (dst : MemOp) (k : Word)
  /-- LDB, immediate to memory, R208. -/
  | ldbImm (dst : MemOp) (k : Byte)
  /-- LDR, R209. -/
  | ldr (d : Reg) (disp : Word)
  /-- LDR, store, R210. -/
  | ldrSt (disp : Word) (s : Reg)
  /-- LDRB, R211. -/
  | ldrb (d : Reg) (disp : Word)
  /-- LDRB, store, R212. -/
  | ldrbSt (disp : Word) (s : Reg)
  /-- LDRL, R213. -/
  | ldrl (d : Reg) (disp : Word)
  /-- LDRL, store, R214. -/
  | ldrlSt (disp : Word) (s : Reg)
  /-- LDA, R215. -/
  | lda (d : Reg) (src : LaSrc)
  /-- LDAR, R216. -/
  | ldar (d : Reg) (disp : Word)
  /-- LDK, R217. -/
  | ldk (d : Reg) (n : BitVec 4)
  /-- LDM, load; `n` is the count less one, R218. -/
  | ldm (d : Reg) (src : MemOp) (n : BitVec 4)
  /-- LDM, store; `n` is the count less one, R219. -/
  | ldmSt (dst : MemOp) (s : Reg) (n : BitVec 4)
  /-- CLR, R220. -/
  | clr (dst : RegMem)
  /-- CLRB, R221. -/
  | clrb (dst : RegMem)
  /-- EX, R222. -/
  | ex (d : Reg) (src : RegMem)
  /-- EXB, R223. -/
  | exb (d : Reg) (src : RegMem)
  /-- PUSH, R224. -/
  | push (d : Reg) (src : Src .w)
  /-- PUSHL, R225. -/
  | pushl (d : Reg) (src : RegMem)
  /-- POP, R226. -/
  | pop (dst : RegMem) (s : Reg)
  /-- POPL, R227. -/
  | popl (dst : RegMem) (s : Reg)
  -- Arithmetic (`41_arithmetic.md`)
  /-- ADD, R264. -/
  | add (d : Reg) (src : Src .w)
  /-- ADDB, R265. -/
  | addb (d : Reg) (src : Src .b)
  /-- ADDL, R266. -/
  | addl (d : Reg) (src : Src .l)
  /-- ADC, R267. -/
  | adc (d s : Reg)
  /-- ADCB, R268. -/
  | adcb (d s : Reg)
  /-- SUB, R269. -/
  | sub (d : Reg) (src : Src .w)
  /-- SUBB, R270. -/
  | subb (d : Reg) (src : Src .b)
  /-- SUBL, R271. -/
  | subl (d : Reg) (src : Src .l)
  /-- SBC, R272. -/
  | sbc (d s : Reg)
  /-- SBCB, R273. -/
  | sbcb (d s : Reg)
  /-- CP, R274. -/
  | cp (d : Reg) (src : Src .w)
  /-- CPB, R275. -/
  | cpb (d : Reg) (src : Src .b)
  /-- CPL, R276. -/
  | cpl (d : Reg) (src : Src .l)
  /-- CP, memory with immediate, R277. -/
  | cpImm (dst : MemOp) (k : Word)
  /-- CPB, memory with immediate, R278. -/
  | cpbImm (dst : MemOp) (k : Byte)
  /-- INC; `n` is the operand less one, R279. -/
  | inc (dst : RegMem) (n : BitVec 4)
  /-- INCB; `n` is the operand less one, R280. -/
  | incb (dst : RegMem) (n : BitVec 4)
  /-- DEC; `n` is the operand less one, R281. -/
  | dec (dst : RegMem) (n : BitVec 4)
  /-- DECB; `n` is the operand less one, R282. -/
  | decb (dst : RegMem) (n : BitVec 4)
  /-- NEG, R283. -/
  | neg (dst : RegMem)
  /-- NEGB, R284. -/
  | negb (dst : RegMem)
  /-- COM, R285. -/
  | com (dst : RegMem)
  /-- COMB, R286. -/
  | comb (dst : RegMem)
  /-- MULT, R287. -/
  | mult (d : Reg) (src : Src .w)
  /-- MULTL, R288. -/
  | multl (d : Reg) (src : Src .l)
  /-- DIV, R289. -/
  | div (d : Reg) (src : Src .w)
  /-- DIVL, R290. -/
  | divl (d : Reg) (src : Src .l)
  /-- EXTSB, R291. -/
  | extsb (d : Reg)
  /-- EXTS, R292. -/
  | exts (d : Reg)
  /-- EXTSL, R293. -/
  | extsl (d : Reg)
  /-- DAB, R294. -/
  | dab (d : Reg)
  -- Logical, bit and test (`42_logical_bit.md`)
  /-- AND, R321. -/
  | and (d : Reg) (src : Src .w)
  /-- ANDB, R322. -/
  | andb (d : Reg) (src : Src .b)
  /-- OR, R323. -/
  | or (d : Reg) (src : Src .w)
  /-- ORB, R324. -/
  | orb (d : Reg) (src : Src .b)
  /-- XOR, R325. -/
  | xor (d : Reg) (src : Src .w)
  /-- XORB, R326. -/
  | xorb (d : Reg) (src : Src .b)
  /-- TEST, R327. -/
  | test (dst : RegMem)
  /-- TESTB, R328. -/
  | testb (dst : RegMem)
  /-- TESTL, R329. -/
  | testl (dst : RegMem)
  /-- BIT, R330. -/
  | bit (dst : RegMem) (b : BitVec 4)
  /-- BITB, R331. -/
  | bitb (dst : RegMem) (b : BitVec 4)
  /-- BIT, bit number in a register, R332. -/
  | bitDyn (d s : Reg)
  /-- BITB, bit number in a register, R333. -/
  | bitbDyn (d s : Reg)
  /-- SET, R334. -/
  | set (dst : RegMem) (b : BitVec 4)
  /-- SETB, R335. -/
  | setb (dst : RegMem) (b : BitVec 4)
  /-- SET, bit number in a register, R336. -/
  | setDyn (d s : Reg)
  /-- SETB, bit number in a register, R337. -/
  | setbDyn (d s : Reg)
  /-- RES, R338. -/
  | res (dst : RegMem) (b : BitVec 4)
  /-- RESB, R339. -/
  | resb (dst : RegMem) (b : BitVec 4)
  /-- RES, bit number in a register, R340. -/
  | resDyn (d s : Reg)
  /-- RESB, bit number in a register, R341. -/
  | resbDyn (d s : Reg)
  /-- TSET, R342. -/
  | tset (dst : RegMem)
  /-- TSETB, R343. -/
  | tsetb (dst : RegMem)
  /-- TCC, R344. -/
  | tcc (cc : Cc) (d : Reg)
  /-- TCCB, R345. -/
  | tccb (cc : Cc) (d : Reg)
  -- Shift and rotate (`43_shift_rotate.md`); `twice` is the field S of R123
  /-- RL, R372. -/
  | rl (d : Reg) (twice : Bool)
  /-- RLB, R373. -/
  | rlb (d : Reg) (twice : Bool)
  /-- RR, R374. -/
  | rr (d : Reg) (twice : Bool)
  /-- RRB, R375. -/
  | rrb (d : Reg) (twice : Bool)
  /-- RLC, R376. -/
  | rlc (d : Reg) (twice : Bool)
  /-- RLCB, R377. -/
  | rlcb (d : Reg) (twice : Bool)
  /-- RRC, R378. -/
  | rrc (d : Reg) (twice : Bool)
  /-- RRCB, R379. -/
  | rrcb (d : Reg) (twice : Bool)
  /-- SLA_SRA, R380. -/
  | slaSra (d : Reg) (count : Word)
  /-- SLAB_SRAB, R381. -/
  | slabSrab (d : Reg) (count : Word)
  /-- SLAL_SRAL, R382. -/
  | slalSral (d : Reg) (count : Word)
  /-- SLL_SRL, R383. -/
  | sllSrl (d : Reg) (count : Word)
  /-- SLLB_SRLB, R384. -/
  | sllbSrlb (d : Reg) (count : Word)
  /-- SLLL_SRLL, R385. -/
  | slllSrll (d : Reg) (count : Word)
  /-- SDA, R386. -/
  | sda (d s : Reg)
  /-- SDAB, R387. -/
  | sdab (d s : Reg)
  /-- SDAL, R388. -/
  | sdal (d s : Reg)
  /-- SDL, R389. -/
  | sdl (d s : Reg)
  /-- SDLB, R390. -/
  | sdlb (d s : Reg)
  /-- SDLL, R391. -/
  | sdll (d s : Reg)
  /-- RLDB, R392. -/
  | rldb (l s : Reg)
  /-- RRDB, R393. -/
  | rrdb (l s : Reg)
  -- Control transfer (`44_control.md`)
  /-- JP, R401. -/
  | jp (cc : Cc) (dst : MemOp)
  /-- JR, R402. -/
  | jr (cc : Cc) (disp : BitVec 8)
  /-- CALL, R403. -/
  | call (dst : MemOp)
  /-- CALR, R404. -/
  | calr (disp : BitVec 12)
  /-- RET, R405. -/
  | ret (cc : Cc)
  /-- DJNZ, R406. -/
  | djnz (r : Reg) (disp : BitVec 7)
  /-- DBJNZ, R407. -/
  | dbjnz (r : Reg) (disp : BitVec 7)
  -- System (`45_system.md`); `v` and `n` of DI and EI are bits 1 and 0 of the word, 0 selecting
  /-- NOP, R430. -/
  | nop
  /-- HALT, R431. -/
  | halt
  /-- DI, R432. -/
  | di (v n : Bool)
  /-- EI, R433. -/
  | ei (v n : Bool)
  /-- LDPS, R434. -/
  | ldps (src : MemOp)
  /-- SC, R435. -/
  | sc (code : Byte)
  /-- IRET, R436. -/
  | iret
  /-- SETFLG, R437. -/
  | setflg (mask : BitVec 4)
  /-- RESFLG, R438. -/
  | resflg (mask : BitVec 4)
  /-- COMFLG, R439. -/
  | comflg (mask : BitVec 4)
  /-- LDCTL Rd,ctl, R440. -/
  | ldctlRead (d : Reg) (k : Ctl)
  /-- LDCTL ctl,Rs, R441. -/
  | ldctlWrite (k : Ctl) (s : Reg)
  /-- LDCTLB Rbd,FLAGS, R442. -/
  | ldctlbRead (d : Reg)
  /-- LDCTLB FLAGS,Rbs, R443. -/
  | ldctlbWrite (s : Reg)
  /-- MSET, R455. -/
  | mset
  /-- MRES, R456. -/
  | mres
  /-- MBIT, R457. -/
  | mbit
  /-- MREQ, R458. -/
  | mreq (d : Reg)
  /-- an extended-processor word, R460. -/
  | epu (page : EpuPage) (op : Byte)
  -- Input and output (`46_io.md`)
  /-- IN Rd,@Rs, R471. -/
  | inInd (d s : Reg)
  /-- IN Rd,#port, R472. -/
  | inDir (d : Reg) (port : Word)
  /-- INB Rbd,@Rs, R473. -/
  | inbInd (d s : Reg)
  /-- INB Rbd,#port, R474. -/
  | inbDir (d : Reg) (port : Word)
  /-- OUT @Rd,Rs, R475. -/
  | outInd (d s : Reg)
  /-- OUT #port,Rs, R476. -/
  | outDir (port : Word) (s : Reg)
  /-- OUTB @Rd,Rbs, R477. -/
  | outbInd (d s : Reg)
  /-- OUTB #port,Rbs, R478. -/
  | outbDir (port : Word) (s : Reg)
  /-- SIN, R479. -/
  | sin (d : Reg) (port : Word)
  /-- SINB, R480. -/
  | sinb (d : Reg) (port : Word)
  /-- SOUT, R481. -/
  | sout (port : Word) (s : Reg)
  /-- SOUTB, R482. -/
  | soutb (port : Word) (s : Reg)
  -- Block transfer, compare, translate (`47_block.md`): destination, source, count register `r`
  /-- LDI, R505. -/
  | ldi (d s r : Reg)
  /-- LDIR, R506. -/
  | ldir (d s r : Reg)
  /-- LDD, R507. -/
  | ldd (d s r : Reg)
  /-- LDDR, R508. -/
  | lddr (d s r : Reg)
  /-- LDIB, R509. -/
  | ldib (d s r : Reg)
  /-- LDIRB, R510. -/
  | ldirb (d s r : Reg)
  /-- LDDB, R511. -/
  | lddb (d s r : Reg)
  /-- LDDRB, R512. -/
  | lddrb (d s r : Reg)
  /-- CPI, R513. -/
  | cpi (d s r : Reg) (cc : Cc)
  /-- CPIR, R514. -/
  | cpir (d s r : Reg) (cc : Cc)
  /-- CPD, R515. -/
  | cpd (d s r : Reg) (cc : Cc)
  /-- CPDR, R516. -/
  | cpdr (d s r : Reg) (cc : Cc)
  /-- CPIB, R517. -/
  | cpib (d s r : Reg) (cc : Cc)
  /-- CPIRB, R518. -/
  | cpirb (d s r : Reg) (cc : Cc)
  /-- CPDB, R519. -/
  | cpdb (d s r : Reg) (cc : Cc)
  /-- CPDRB, R520. -/
  | cpdrb (d s r : Reg) (cc : Cc)
  /-- CPSI, R521. -/
  | cpsi (d s r : Reg) (cc : Cc)
  /-- CPSIR, R522. -/
  | cpsir (d s r : Reg) (cc : Cc)
  /-- CPSD, R523. -/
  | cpsd (d s r : Reg) (cc : Cc)
  /-- CPSDR, R524. -/
  | cpsdr (d s r : Reg) (cc : Cc)
  /-- CPSIB, R525. -/
  | cpsib (d s r : Reg) (cc : Cc)
  /-- CPSIRB, R526. -/
  | cpsirb (d s r : Reg) (cc : Cc)
  /-- CPSDB, R527. -/
  | cpsdb (d s r : Reg) (cc : Cc)
  /-- CPSDRB, R528. -/
  | cpsdrb (d s r : Reg) (cc : Cc)
  /-- TRIB, R561. -/
  | trib (d s r : Reg)
  /-- TRIRB, R562. -/
  | trirb (d s r : Reg)
  /-- TRDB, R563. -/
  | trdb (d s r : Reg)
  /-- TRDRB, R564. -/
  | trdrb (d s r : Reg)
  /-- TRTIB, R565. -/
  | trtib (s1 s2 r : Reg)
  /-- TRTIRB, R566. -/
  | trtirb (s1 s2 r : Reg)
  /-- TRTDB, R567. -/
  | trtdb (s1 s2 r : Reg)
  /-- TRTDRB, R568. -/
  | trtdrb (s1 s2 r : Reg)
  -- Block input and output (`48_block_io.md`)
  /-- INI, R529. -/
  | ini (d s r : Reg)
  /-- INIR, R530. -/
  | inir (d s r : Reg)
  /-- IND, R531. -/
  | ind (d s r : Reg)
  /-- INDR, R532. -/
  | indr (d s r : Reg)
  /-- INIB, R533. -/
  | inib (d s r : Reg)
  /-- INIRB, R534. -/
  | inirb (d s r : Reg)
  /-- INDB, R535. -/
  | indb (d s r : Reg)
  /-- INDRB, R536. -/
  | indrb (d s r : Reg)
  /-- SINI, R537. -/
  | sini (d s r : Reg)
  /-- SINIR, R538. -/
  | sinir (d s r : Reg)
  /-- SIND, R539. -/
  | sind (d s r : Reg)
  /-- SINDR, R540. -/
  | sindr (d s r : Reg)
  /-- SINIB, R541. -/
  | sinib (d s r : Reg)
  /-- SINIRB, R542. -/
  | sinirb (d s r : Reg)
  /-- SINDB, R543. -/
  | sindb (d s r : Reg)
  /-- SINDRB, R544. -/
  | sindrb (d s r : Reg)
  /-- OUTI, R545. -/
  | outi (d s r : Reg)
  /-- OTIR, R546. -/
  | otir (d s r : Reg)
  /-- OUTD, R547. -/
  | outd (d s r : Reg)
  /-- OTDR, R548. -/
  | otdr (d s r : Reg)
  /-- OUTIB, R549. -/
  | outib (d s r : Reg)
  /-- OTIRB, R550. -/
  | otirb (d s r : Reg)
  /-- OUTDB, R551. -/
  | outdb (d s r : Reg)
  /-- OTDRB, R552. -/
  | otdrb (d s r : Reg)
  /-- SOUTI, R553. -/
  | souti (d s r : Reg)
  /-- SOTIR, R554. -/
  | sotir (d s r : Reg)
  /-- SOUTD, R555. -/
  | soutd (d s r : Reg)
  /-- SOTDR, R556. -/
  | sotdr (d s r : Reg)
  /-- SOUTIB, R557. -/
  | soutib (d s r : Reg)
  /-- SOTIRB, R558. -/
  | sotirb (d s r : Reg)
  /-- SOUTDB, R559. -/
  | soutdb (d s r : Reg)
  /-- SOTDRB, R560. -/
  | sotdrb (d s r : Reg)
  deriving DecidableEq, Repr

end Sys2Proof
end

