-- ==== Sys2Proof/WellFormed.lean ====
section
/-! DEFINITION. WellFormed.lean: which instructions have an encoding that executes: pointer, address, base and index
fields are not 0 (`30_encoding.md` R116), long-register fields are even and quad-register fields multiples of 4
(R118). It is a check on syntax; what the machine does with an ill-formed field is the meaning's trap. -/
namespace Sys2Proof

/-- A register that may hold an address, an index, a base or a port (R116). -/
def ptrReg (n : Reg) : Bool := n != 0

/-- A long-register field (R118). -/
def longReg (n : Reg) : Bool := n.toNat % 2 == 0

/-- A quad-register field (R118). -/
def quadReg (n : Reg) : Bool := n.toNat % 4 == 0

/-- A register field of an operand of width `z` (R117, R118). -/
def Size.regWf : Size → Reg → Bool
  | .b, _ => true
  | .w, _ => true
  | .l, n => longReg n

def MemOp.wf : MemOp → Bool
  | .ir a => ptrReg a
  | .da _ => true
  | .x _ a => ptrReg a

def RegMem.wf (z : Size) : RegMem → Bool
  | .reg n => z.regWf n
  | .mem m => m.wf

def Src.wf {z : Size} : Src z → Bool
  | .reg n => z.regWf n
  | .imm _ => true
  | .mem m => m.wf

def Based.wf : Based → Bool
  | .ba a _ => ptrReg a
  | .bx a x => ptrReg a && ptrReg x

def LdSrc.wf {z : Size} : LdSrc z → Bool
  | .src o => o.wf
  | .based o => o.wf

def StDst.wf : StDst → Bool
  | .mem m => m.wf
  | .based o => o.wf

def LaSrc.wf : LaSrc → Bool
  | .da _ => true
  | .x _ a => ptrReg a
  | .based o => o.wf

/-- The well-formed instructions (R116, R118). -/
def Instr.wf : Instr → Bool
  | .ld _ src => src.wf
  | .ldb _ src => src.wf
  | .ldbShort _ _ => true
  | .ldl d src => longReg d && src.wf
  | .ldSt dst _ => dst.wf
  | .ldbSt dst _ => dst.wf
  | .ldlSt dst s => dst.wf && longReg s
  | .ldImm dst _ => dst.wf
  | .ldbImm dst _ => dst.wf
  | .ldr _ _ => true
  | .ldrSt _ _ => true
  | .ldrb _ _ => true
  | .ldrbSt _ _ => true
  | .ldrl d _ => longReg d
  | .ldrlSt _ s => longReg s
  | .lda _ src => src.wf
  | .ldar _ _ => true
  | .ldk _ _ => true
  | .ldm _ src _ => src.wf
  | .ldmSt dst _ _ => dst.wf
  | .clr dst => dst.wf .w
  | .clrb dst => dst.wf .b
  | .ex _ src => src.wf .w
  | .exb _ src => src.wf .b
  | .push d src => ptrReg d && src.wf
  | .pushl d src => ptrReg d && src.wf .l
  | .pop dst s => ptrReg s && dst.wf .w
  | .popl dst s => ptrReg s && dst.wf .l
  | .add _ src => src.wf
  | .addb _ src => src.wf
  | .addl d src => longReg d && src.wf
  | .adc _ _ => true
  | .adcb _ _ => true
  | .sub _ src => src.wf
  | .subb _ src => src.wf
  | .subl d src => longReg d && src.wf
  | .sbc _ _ => true
  | .sbcb _ _ => true
  | .cp _ src => src.wf
  | .cpb _ src => src.wf
  | .cpl d src => longReg d && src.wf
  | .cpImm dst _ => dst.wf
  | .cpbImm dst _ => dst.wf
  | .inc dst _ => dst.wf .w
  | .incb dst _ => dst.wf .b
  | .dec dst _ => dst.wf .w
  | .decb dst _ => dst.wf .b
  | .neg dst => dst.wf .w
  | .negb dst => dst.wf .b
  | .com dst => dst.wf .w
  | .comb dst => dst.wf .b
  | .mult d src => longReg d && src.wf
  | .multl d src => quadReg d && src.wf
  | .div d src => longReg d && src.wf
  | .divl d src => quadReg d && src.wf
  | .extsb _ => true
  | .exts d => longReg d
  | .extsl d => quadReg d
  | .dab _ => true
  | .and _ src => src.wf
  | .andb _ src => src.wf
  | .or _ src => src.wf
  | .orb _ src => src.wf
  | .xor _ src => src.wf
  | .xorb _ src => src.wf
  | .test dst => dst.wf .w
  | .testb dst => dst.wf .b
  | .testl dst => dst.wf .l
  | .bit dst _ => dst.wf .w
  | .bitb dst _ => dst.wf .b
  | .bitDyn _ _ => true
  | .bitbDyn _ _ => true
  | .set dst _ => dst.wf .w
  | .setb dst _ => dst.wf .b
  | .setDyn _ _ => true
  | .setbDyn _ _ => true
  | .res dst _ => dst.wf .w
  | .resb dst _ => dst.wf .b
  | .resDyn _ _ => true
  | .resbDyn _ _ => true
  | .tset dst => dst.wf .w
  | .tsetb dst => dst.wf .b
  | .tcc _ _ => true
  | .tccb _ _ => true
  | .rl _ _ => true
  | .rlb _ _ => true
  | .rr _ _ => true
  | .rrb _ _ => true
  | .rlc _ _ => true
  | .rlcb _ _ => true
  | .rrc _ _ => true
  | .rrcb _ _ => true
  | .slaSra _ _ => true
  | .slabSrab _ _ => true
  | .slalSral d _ => longReg d
  | .sllSrl _ _ => true
  | .sllbSrlb _ _ => true
  | .slllSrll d _ => longReg d
  | .sda _ _ => true
  | .sdab _ _ => true
  | .sdal d _ => longReg d
  | .sdl _ _ => true
  | .sdlb _ _ => true
  | .sdll d _ => longReg d
  | .rldb _ _ => true
  | .rrdb _ _ => true
  | .jp _ dst => dst.wf
  | .jr _ _ => true
  | .call dst => dst.wf
  | .calr _ => true
  | .ret _ => true
  | .djnz _ _ => true
  | .dbjnz _ _ => true
  | .nop => true
  | .halt => true
  | .di _ _ => true
  | .ei _ _ => true
  | .ldps src => src.wf
  | .sc _ => true
  | .iret => true
  | .setflg _ => true
  | .resflg _ => true
  | .comflg _ => true
  | .ldctlRead _ _ => true
  | .ldctlWrite _ _ => true
  | .ldctlbRead _ => true
  | .ldctlbWrite _ => true
  | .mset => true
  | .mres => true
  | .mbit => true
  | .mreq _ => true
  | .epu _ _ => true
  | .inInd _ s => ptrReg s
  | .inDir _ _ => true
  | .inbInd _ s => ptrReg s
  | .inbDir _ _ => true
  | .outInd d _ => ptrReg d
  | .outDir _ _ => true
  | .outbInd d _ => ptrReg d
  | .outbDir _ _ => true
  | .sin _ _ => true
  | .sinb _ _ => true
  | .sout _ _ => true
  | .soutb _ _ => true
  | .ldi d s _ => ptrReg d && ptrReg s
  | .ldir d s _ => ptrReg d && ptrReg s
  | .ldd d s _ => ptrReg d && ptrReg s
  | .lddr d s _ => ptrReg d && ptrReg s
  | .ldib d s _ => ptrReg d && ptrReg s
  | .ldirb d s _ => ptrReg d && ptrReg s
  | .lddb d s _ => ptrReg d && ptrReg s
  | .lddrb d s _ => ptrReg d && ptrReg s
  | .cpi _ s _ _ => ptrReg s
  | .cpir _ s _ _ => ptrReg s
  | .cpd _ s _ _ => ptrReg s
  | .cpdr _ s _ _ => ptrReg s
  | .cpib _ s _ _ => ptrReg s
  | .cpirb _ s _ _ => ptrReg s
  | .cpdb _ s _ _ => ptrReg s
  | .cpdrb _ s _ _ => ptrReg s
  | .cpsi d s _ _ => ptrReg d && ptrReg s
  | .cpsir d s _ _ => ptrReg d && ptrReg s
  | .cpsd d s _ _ => ptrReg d && ptrReg s
  | .cpsdr d s _ _ => ptrReg d && ptrReg s
  | .cpsib d s _ _ => ptrReg d && ptrReg s
  | .cpsirb d s _ _ => ptrReg d && ptrReg s
  | .cpsdb d s _ _ => ptrReg d && ptrReg s
  | .cpsdrb d s _ _ => ptrReg d && ptrReg s
  | .trib d s _ => ptrReg d && ptrReg s
  | .trirb d s _ => ptrReg d && ptrReg s
  | .trdb d s _ => ptrReg d && ptrReg s
  | .trdrb d s _ => ptrReg d && ptrReg s
  | .trtib s1 s2 _ => ptrReg s1 && ptrReg s2
  | .trtirb s1 s2 _ => ptrReg s1 && ptrReg s2
  | .trtdb s1 s2 _ => ptrReg s1 && ptrReg s2
  | .trtdrb s1 s2 _ => ptrReg s1 && ptrReg s2
  | .ini d s _ => ptrReg d && ptrReg s
  | .inir d s _ => ptrReg d && ptrReg s
  | .ind d s _ => ptrReg d && ptrReg s
  | .indr d s _ => ptrReg d && ptrReg s
  | .inib d s _ => ptrReg d && ptrReg s
  | .inirb d s _ => ptrReg d && ptrReg s
  | .indb d s _ => ptrReg d && ptrReg s
  | .indrb d s _ => ptrReg d && ptrReg s
  | .sini d s _ => ptrReg d && ptrReg s
  | .sinir d s _ => ptrReg d && ptrReg s
  | .sind d s _ => ptrReg d && ptrReg s
  | .sindr d s _ => ptrReg d && ptrReg s
  | .sinib d s _ => ptrReg d && ptrReg s
  | .sinirb d s _ => ptrReg d && ptrReg s
  | .sindb d s _ => ptrReg d && ptrReg s
  | .sindrb d s _ => ptrReg d && ptrReg s
  | .outi d s _ => ptrReg d && ptrReg s
  | .otir d s _ => ptrReg d && ptrReg s
  | .outd d s _ => ptrReg d && ptrReg s
  | .otdr d s _ => ptrReg d && ptrReg s
  | .outib d s _ => ptrReg d && ptrReg s
  | .otirb d s _ => ptrReg d && ptrReg s
  | .outdb d s _ => ptrReg d && ptrReg s
  | .otdrb d s _ => ptrReg d && ptrReg s
  | .souti d s _ => ptrReg d && ptrReg s
  | .sotir d s _ => ptrReg d && ptrReg s
  | .soutd d s _ => ptrReg d && ptrReg s
  | .sotdr d s _ => ptrReg d && ptrReg s
  | .soutib d s _ => ptrReg d && ptrReg s
  | .sotirb d s _ => ptrReg d && ptrReg s
  | .soutdb d s _ => ptrReg d && ptrReg s
  | .sotdrb d s _ => ptrReg d && ptrReg s

end Sys2Proof
end

