-- ==== Sys2Proof/Decode.lean ====
section
/-! DEFINITION. Decode.lean: the decoder (`30_encoding.md` R110 to R128) and, after it, the encoder.
The decoder follows the first-byte map (R126): one function for each high digit of the first byte, and in it one line
for each low digit. A pointer field 0 or an odd long-register field does not reject a word here: the word is still the
row's instruction, and its meaning takes the trap of R116 or R118 (DESIGN CHOICE, log 16). -/
namespace Sys2Proof

/-! ## Fields -/

/-- A word from its four hexadecimal digits, most significant first (`00_scope.md` R11). -/
def join (p q a b : Reg) : Word := p ++ q ++ a ++ b

def Word.digit3 (w : Word) : Reg := w.extractLsb' 12 4
def Word.digit2 (w : Word) : Reg := w.extractLsb' 8 4
/-- The field `A` of R111. -/
def Word.digit1 (w : Word) : Reg := w.extractLsb' 4 4
/-- The field `B` of R111. -/
def Word.digit0 (w : Word) : Reg := w.extractLsb' 0 4

def Word.hi (w : Word) : Byte := w.extractLsb' 8 8
def Word.lo (w : Word) : Byte := w.extractLsb' 0 8

/-- Two 4-bit fields as one byte, the first in the high bits. -/
def byteOf (a b : Reg) : Byte := a ++ b

/-- The condition code of a 4-bit field (R125). -/
def Cc.ofBits : BitVec 4 → Cc
  | 0x0 => .f   | 0x1 => .lt | 0x2 => .le | 0x3 => .ule
  | 0x4 => .ov  | 0x5 => .mi | 0x6 => .eq | 0x7 => .c
  | 0x8 => .t   | 0x9 => .ge | 0xA => .gt | 0xB => .ugt
  | 0xC => .nov | 0xD => .pl | 0xE => .ne | _   => .nc

/-- The 4-bit field of a condition code (R125). -/
def Cc.bits : Cc → BitVec 4
  | .f   => 0x0 | .lt => 0x1 | .le => 0x2 | .ule => 0x3
  | .ov  => 0x4 | .mi => 0x5 | .eq => 0x6 | .c   => 0x7
  | .t   => 0x8 | .ge => 0x9 | .gt => 0xA | .ugt => 0xB
  | .nov => 0xC | .pl => 0xD | .ne => 0xE | .nc  => 0xF

/-! ## Lengths -/

/-- Extension words of a memory operand (R114). -/
def MemOp.extLen : MemOp → Nat
  | .ir _ => 0
  | .da _ => 1
  | .x _ _ => 1

def RegMem.extLen : RegMem → Nat
  | .reg _ => 0
  | .mem m => m.extLen

/-- Extension words of an immediate (R114). -/
def Size.immLen : Size → Nat
  | .b => 1
  | .w => 1
  | .l => 2

def Src.extLen {z : Size} : Src z → Nat
  | .reg _ => 0
  | .imm _ => z.immLen
  | .mem m => m.extLen

def LdSrc.extLen {z : Size} : LdSrc z → Nat
  | .src o => o.extLen
  | .based _ => 1

def StDst.extLen : StDst → Nat
  | .mem m => m.extLen
  | .based _ => 1

/-- The length of an instruction in words (R110, R119; the "words" of `opcode_table.json`). -/
def Instr.words : Instr → Nat
  | .ld _ src => 1 + src.extLen
  | .ldb _ src => 1 + src.extLen
  | .ldbShort _ _ => 1
  | .ldl _ src => 1 + src.extLen
  | .ldSt dst _ => 1 + dst.extLen
  | .ldbSt dst _ => 1 + dst.extLen
  | .ldlSt dst _ => 1 + dst.extLen
  | .ldImm dst _ => 2 + dst.extLen
  | .ldbImm dst _ => 2 + dst.extLen
  | .ldr _ _ => 2
  | .ldrSt _ _ => 2
  | .ldrb _ _ => 2
  | .ldrbSt _ _ => 2
  | .ldrl _ _ => 2
  | .ldrlSt _ _ => 2
  | .lda _ _ => 2
  | .ldar _ _ => 2
  | .ldk _ _ => 1
  | .ldm _ src _ => 2 + src.extLen
  | .ldmSt dst _ _ => 2 + dst.extLen
  | .clr dst => 1 + dst.extLen
  | .clrb dst => 1 + dst.extLen
  | .ex _ src => 1 + src.extLen
  | .exb _ src => 1 + src.extLen
  | .push _ src => 1 + src.extLen
  | .pushl _ src => 1 + src.extLen
  | .pop dst _ => 1 + dst.extLen
  | .popl dst _ => 1 + dst.extLen
  | .add _ src => 1 + src.extLen
  | .addb _ src => 1 + src.extLen
  | .addl _ src => 1 + src.extLen
  | .adc _ _ => 1
  | .adcb _ _ => 1
  | .sub _ src => 1 + src.extLen
  | .subb _ src => 1 + src.extLen
  | .subl _ src => 1 + src.extLen
  | .sbc _ _ => 1
  | .sbcb _ _ => 1
  | .cp _ src => 1 + src.extLen
  | .cpb _ src => 1 + src.extLen
  | .cpl _ src => 1 + src.extLen
  | .cpImm dst _ => 2 + dst.extLen
  | .cpbImm dst _ => 2 + dst.extLen
  | .inc dst _ => 1 + dst.extLen
  | .incb dst _ => 1 + dst.extLen
  | .dec dst _ => 1 + dst.extLen
  | .decb dst _ => 1 + dst.extLen
  | .neg dst => 1 + dst.extLen
  | .negb dst => 1 + dst.extLen
  | .com dst => 1 + dst.extLen
  | .comb dst => 1 + dst.extLen
  | .mult _ src => 1 + src.extLen
  | .multl _ src => 1 + src.extLen
  | .div _ src => 1 + src.extLen
  | .divl _ src => 1 + src.extLen
  | .extsb _ => 1
  | .exts _ => 1
  | .extsl _ => 1
  | .dab _ => 1
  | .and _ src => 1 + src.extLen
  | .andb _ src => 1 + src.extLen
  | .or _ src => 1 + src.extLen
  | .orb _ src => 1 + src.extLen
  | .xor _ src => 1 + src.extLen
  | .xorb _ src => 1 + src.extLen
  | .test dst => 1 + dst.extLen
  | .testb dst => 1 + dst.extLen
  | .testl dst => 1 + dst.extLen
  | .bit dst _ => 1 + dst.extLen
  | .bitb dst _ => 1 + dst.extLen
  | .bitDyn _ _ => 2
  | .bitbDyn _ _ => 2
  | .set dst _ => 1 + dst.extLen
  | .setb dst _ => 1 + dst.extLen
  | .setDyn _ _ => 2
  | .setbDyn _ _ => 2
  | .res dst _ => 1 + dst.extLen
  | .resb dst _ => 1 + dst.extLen
  | .resDyn _ _ => 2
  | .resbDyn _ _ => 2
  | .tset dst => 1 + dst.extLen
  | .tsetb dst => 1 + dst.extLen
  | .tcc _ _ => 1
  | .tccb _ _ => 1
  | .rl _ _ => 1
  | .rlb _ _ => 1
  | .rr _ _ => 1
  | .rrb _ _ => 1
  | .rlc _ _ => 1
  | .rlcb _ _ => 1
  | .rrc _ _ => 1
  | .rrcb _ _ => 1
  | .slaSra _ _ => 2
  | .slabSrab _ _ => 2
  | .slalSral _ _ => 2
  | .sllSrl _ _ => 2
  | .sllbSrlb _ _ => 2
  | .slllSrll _ _ => 2
  | .sda _ _ => 2
  | .sdab _ _ => 2
  | .sdal _ _ => 2
  | .sdl _ _ => 2
  | .sdlb _ _ => 2
  | .sdll _ _ => 2
  | .rldb _ _ => 1
  | .rrdb _ _ => 1
  | .jp _ dst => 1 + dst.extLen
  | .jr _ _ => 1
  | .call dst => 1 + dst.extLen
  | .calr _ => 1
  | .ret _ => 1
  | .djnz _ _ => 1
  | .dbjnz _ _ => 1
  | .nop => 1
  | .halt => 1
  | .di _ _ => 1
  | .ei _ _ => 1
  | .ldps src => 1 + src.extLen
  | .sc _ => 1
  | .iret => 1
  | .setflg _ => 1
  | .resflg _ => 1
  | .comflg _ => 1
  | .ldctlRead _ _ => 1
  | .ldctlWrite _ _ => 1
  | .ldctlbRead _ => 1
  | .ldctlbWrite _ => 1
  | .mset => 1
  | .mres => 1
  | .mbit => 1
  | .mreq _ => 1
  | .epu _ _ => 1
  | .inInd _ _ => 1
  | .inDir _ _ => 2
  | .inbInd _ _ => 1
  | .inbDir _ _ => 2
  | .outInd _ _ => 1
  | .outDir _ _ => 2
  | .outbInd _ _ => 1
  | .outbDir _ _ => 2
  | .sin _ _ => 2
  | .sinb _ _ => 2
  | .sout _ _ => 2
  | .soutb _ _ => 2
  | .ldi _ _ _ => 2
  | .ldir _ _ _ => 2
  | .ldd _ _ _ => 2
  | .lddr _ _ _ => 2
  | .ldib _ _ _ => 2
  | .ldirb _ _ _ => 2
  | .lddb _ _ _ => 2
  | .lddrb _ _ _ => 2
  | .cpi _ _ _ _ => 2
  | .cpir _ _ _ _ => 2
  | .cpd _ _ _ _ => 2
  | .cpdr _ _ _ _ => 2
  | .cpib _ _ _ _ => 2
  | .cpirb _ _ _ _ => 2
  | .cpdb _ _ _ _ => 2
  | .cpdrb _ _ _ _ => 2
  | .cpsi _ _ _ _ => 2
  | .cpsir _ _ _ _ => 2
  | .cpsd _ _ _ _ => 2
  | .cpsdr _ _ _ _ => 2
  | .cpsib _ _ _ _ => 2
  | .cpsirb _ _ _ _ => 2
  | .cpsdb _ _ _ _ => 2
  | .cpsdrb _ _ _ _ => 2
  | .trib _ _ _ => 2
  | .trirb _ _ _ => 2
  | .trdb _ _ _ => 2
  | .trdrb _ _ _ => 2
  | .trtib _ _ _ => 2
  | .trtirb _ _ _ => 2
  | .trtdb _ _ _ => 2
  | .trtdrb _ _ _ => 2
  | .ini _ _ _ => 2
  | .inir _ _ _ => 2
  | .ind _ _ _ => 2
  | .indr _ _ _ => 2
  | .inib _ _ _ => 2
  | .inirb _ _ _ => 2
  | .indb _ _ _ => 2
  | .indrb _ _ _ => 2
  | .sini _ _ _ => 2
  | .sinir _ _ _ => 2
  | .sind _ _ _ => 2
  | .sindr _ _ _ => 2
  | .sinib _ _ _ => 2
  | .sinirb _ _ _ => 2
  | .sindb _ _ _ => 2
  | .sindrb _ _ _ => 2
  | .outi _ _ _ => 2
  | .otir _ _ _ => 2
  | .outd _ _ _ => 2
  | .otdr _ _ _ => 2
  | .outib _ _ _ => 2
  | .otirb _ _ _ => 2
  | .outdb _ _ _ => 2
  | .otdrb _ _ _ => 2
  | .souti _ _ _ => 2
  | .sotir _ _ _ => 2
  | .soutd _ _ _ => 2
  | .sotdr _ _ _ => 2
  | .soutib _ _ _ => 2
  | .sotirb _ _ _ => 2
  | .soutdb _ _ _ => 2
  | .sotdrb _ _ _ => 2

/-! ## The decoder -/

/-- Mode class 00 with the address field `a` not 0, or class 01: IR (R112). -/
def memIr (a : Reg) : MemOp := .ir a

/-- Mode class 01: DA when the address field is 0, X otherwise (R112). -/
def memDax (a : Reg) (addr : Word) : MemOp := if a = 0 then .da addr else .x addr a

/-- Mode class 00 of an instruction with a byte immediate: IM when the field is 0, IR otherwise (R112, R114). -/
def srcImB (a : Reg) (w2 : Word) : Src .b := if a = 0 then .imm w2.lo else .mem (.ir a)
/-- As `srcImB`, for a word immediate. -/
def srcImW (a : Reg) (w2 : Word) : Src .w := if a = 0 then .imm w2 else .mem (.ir a)
/-- As `srcImB`, for a long immediate, high word first. -/
def srcImL (a : Reg) (w2 w3 : Word) : Src .l := if a = 0 then .imm (w2 ++ w3) else .mem (.ir a)

/-- The low digits 0 to B of first bytes 0x, 4x, 8x. -/
def decodeAlu (q d : Reg) (sb : Src .b) (sw : Src .w) : Option Instr :=
  match q with
  | 0x0 => some (.addb d sb)
  | 0x1 => some (.add d sw)
  | 0x2 => some (.subb d sb)
  | 0x3 => some (.sub d sw)
  | 0x4 => some (.orb d sb)
  | 0x5 => some (.or d sw)
  | 0x6 => some (.andb d sb)
  | 0x7 => some (.and d sw)
  | 0x8 => some (.xorb d sb)
  | 0x9 => some (.xor d sw)
  | 0xA => some (.cpb d sb)
  | 0xB => some (.cp d sw)
  | _ => none

/-- First bytes 0C, 4C: `b` is the sub-operation, `k` the immediate word. -/
def decodeMemB (m : MemOp) (b : Reg) (k : Word) : Option Instr :=
  match b with
  | 0x0 => some (.comb (.mem m))
  | 0x1 => some (.cpbImm m k.lo)
  | 0x2 => some (.negb (.mem m))
  | 0x4 => some (.testb (.mem m))
  | 0x5 => some (.ldbImm m k.lo)
  | 0x6 => some (.tsetb (.mem m))
  | 0x8 => some (.clrb (.mem m))
  | _ => none

/-- First bytes 0D, 4D, but for PUSH. -/
def decodeMemW (m : MemOp) (b : Reg) (k : Word) : Option Instr :=
  match b with
  | 0x0 => some (.com (.mem m))
  | 0x1 => some (.cpImm m k)
  | 0x2 => some (.neg (.mem m))
  | 0x4 => some (.test (.mem m))
  | 0x5 => some (.ldImm m k)
  | 0x6 => some (.tset (.mem m))
  | 0x8 => some (.clr (.mem m))
  | _ => none

/-- First bytes 00 to 0F. -/
def decode0 (q a b : Reg) (w2 : Word) : Option Instr :=
  match q with
  | 0xC => decodeMemB (.ir a) b w2
  | 0xD => match b with
    | 0x9 => some (.push a (.imm w2))
    | _ => decodeMemW (.ir a) b w2
  | 0xE => some (.epu .p0E (byteOf a b))
  | 0xF => some (.epu .p0F (byteOf a b))
  | _ => decodeAlu q b (srcImB a w2) (srcImW a w2)

/-- First bytes 40 to 4F. -/
def decode4 (q a b : Reg) (w2 w3 : Word) : Option Instr :=
  match q with
  | 0xC => decodeMemB (memDax a w2) b w3
  | 0xD => decodeMemW (memDax a w2) b w3
  | 0xE => some (.epu .p4E (byteOf a b))
  | 0xF => some (.epu .p4F (byteOf a b))
  | _ => decodeAlu q b (.mem (memDax a w2)) (.mem (memDax a w2))

/-- First bytes 80 to 8F. -/
def decode8 (q a b : Reg) : Option Instr :=
  match q with
  | 0xC => match b with
    | 0x0 => some (.comb (.reg a))
    | 0x1 => some (.ldctlbRead a)
    | 0x2 => some (.negb (.reg a))
    | 0x4 => some (.testb (.reg a))
    | 0x6 => some (.tsetb (.reg a))
    | 0x8 => some (.clrb (.reg a))
    | 0x9 => some (.ldctlbWrite a)
    | _ => none
  | 0xD => match b with
    | 0x0 => some (.com (.reg a))
    | 0x1 => some (.setflg a)
    | 0x2 => some (.neg (.reg a))
    | 0x3 => some (.resflg a)
    | 0x4 => some (.test (.reg a))
    | 0x5 => some (.comflg a)
    | 0x6 => some (.tset (.reg a))
    | 0x7 => if a = 0 then some .nop else none
    | 0x8 => some (.clr (.reg a))
    | _ => none
  | 0xE => some (.epu .p8E (byteOf a b))
  | 0xF => some (.epu .p8F (byteOf a b))
  | _ => decodeAlu q b (.reg a) (.reg a)

/-- First bytes 1C, 5C: LDM with the register word `w2` and TESTL (R121). -/
def decodeLdm (mLdm mTest : MemOp) (b : Reg) (w2 : Word) : Option Instr :=
  match b with
  | 0x1 => some (.ldm w2.digit2 mLdm w2.digit0)
  | 0x8 => some (.testl (.mem mTest))
  | 0x9 => some (.ldmSt mLdm w2.digit2 w2.digit0)
  | _ => none

/-- First bytes 10 to 1F. In PUSH, PUSHL, POP, POPL the field A is the stack register (R113). -/
def decode1 (q a b : Reg) (w2 w3 : Word) : Option Instr :=
  match q with
  | 0x0 => some (.cpl b (srcImL a w2 w3))
  | 0x1 => some (.pushl a (.mem (.ir b)))
  | 0x2 => some (.subl b (srcImL a w2 w3))
  | 0x3 => some (.push a (.mem (.ir b)))
  | 0x4 => some (.ldl b (.src (srcImL a w2 w3)))
  | 0x5 => some (.popl (.mem (.ir b)) a)
  | 0x6 => some (.addl b (srcImL a w2 w3))
  | 0x7 => some (.pop (.mem (.ir b)) a)
  | 0x8 => some (.multl b (srcImL a w2 w3))
  | 0x9 => some (.mult b (srcImW a w2))
  | 0xA => some (.divl b (srcImL a w2 w3))
  | 0xB => some (.div b (srcImW a w2))
  | 0xC => decodeLdm (.ir a) (.ir a) b w2
  | 0xD => some (.ldlSt (.mem (.ir a)) b)
  | 0xE => some (.jp (.ofBits b) (.ir a))
  | _   => if b = 0 then some (.call (.ir a)) else none

/-- First bytes 50 to 5F. -/
def decode5 (q a b : Reg) (w2 w3 : Word) : Option Instr :=
  match q with
  | 0x0 => some (.cpl b (.mem (memDax a w2)))
  | 0x1 => some (.pushl a (.mem (memDax b w2)))
  | 0x2 => some (.subl b (.mem (memDax a w2)))
  | 0x3 => some (.push a (.mem (memDax b w2)))
  | 0x4 => some (.ldl b (.src (.mem (memDax a w2))))
  | 0x5 => some (.popl (.mem (memDax b w2)) a)
  | 0x6 => some (.addl b (.mem (memDax a w2)))
  | 0x7 => some (.pop (.mem (memDax b w2)) a)
  | 0x8 => some (.multl b (.mem (memDax a w2)))
  | 0x9 => some (.mult b (.mem (memDax a w2)))
  | 0xA => some (.divl b (.mem (memDax a w2)))
  | 0xB => some (.div b (.mem (memDax a w2)))
  | 0xC => decodeLdm (memDax a w3) (memDax a w2) b w2
  | 0xD => some (.ldlSt (.mem (memDax a w2)) b)
  | 0xE => some (.jp (.ofBits b) (memDax a w2))
  | _   => if b = 0 then some (.call (memDax a w2)) else none

/-- First bytes 90 to 9F. -/
def decode9 (q a b : Reg) : Option Instr :=
  match q with
  | 0x0 => some (.cpl b (.reg a))
  | 0x1 => some (.pushl a (.reg b))
  | 0x2 => some (.subl b (.reg a))
  | 0x3 => some (.push a (.reg b))
  | 0x4 => some (.ldl b (.src (.reg a)))
  | 0x5 => some (.popl (.reg b) a)
  | 0x6 => some (.addl b (.reg a))
  | 0x7 => some (.pop (.reg b) a)
  | 0x8 => some (.multl b (.reg a))
  | 0x9 => some (.mult b (.reg a))
  | 0xA => some (.divl b (.reg a))
  | 0xB => some (.div b (.reg a))
  | 0xC => if b = 8 then some (.testl (.reg a)) else none
  | 0xE => if a = 0 then some (.ret (.ofBits b)) else none
  | _ => none

/-- The bit instructions of first bytes 22 to 27: dynamic when the field A is 0, static IR otherwise (R112). -/
def decodeBit (a b : Reg) (w2 : Word) (dyn : Reg → Reg → Instr) (static : RegMem → BitVec 4 → Instr) : Option Instr :=
  if a = 0 then some (dyn w2.digit2 b) else some (static (.mem (.ir a)) b)

/-- First bytes 20 to 2F. -/
def decode2 (q a b : Reg) (w2 : Word) : Option Instr :=
  match q with
  | 0x0 => some (.ldb b (.src (srcImB a w2)))
  | 0x1 => some (.ld b (.src (srcImW a w2)))
  | 0x2 => decodeBit a b w2 .resbDyn .resb
  | 0x3 => decodeBit a b w2 .resDyn .res
  | 0x4 => decodeBit a b w2 .setbDyn .setb
  | 0x5 => decodeBit a b w2 .setDyn .set
  | 0x6 => decodeBit a b w2 .bitbDyn .bitb
  | 0x7 => decodeBit a b w2 .bitDyn .bit
  | 0x8 => some (.incb (.mem (.ir a)) b)
  | 0x9 => some (.inc (.mem (.ir a)) b)
  | 0xA => some (.decb (.mem (.ir a)) b)
  | 0xB => some (.dec (.mem (.ir a)) b)
  | 0xC => some (.exb b (.mem (.ir a)))
  | 0xD => some (.ex b (.mem (.ir a)))
  | 0xE => some (.ldbSt (.mem (.ir a)) b)
  | _   => some (.ldSt (.mem (.ir a)) b)

/-- First bytes 60 to 6F. -/
def decode6 (q a b : Reg) (w2 : Word) : Option Instr :=
  match q with
  | 0x0 => some (.ldb b (.src (.mem (memDax a w2))))
  | 0x1 => some (.ld b (.src (.mem (memDax a w2))))
  | 0x2 => some (.resb (.mem (memDax a w2)) b)
  | 0x3 => some (.res (.mem (memDax a w2)) b)
  | 0x4 => some (.setb (.mem (memDax a w2)) b)
  | 0x5 => some (.set (.mem (memDax a w2)) b)
  | 0x6 => some (.bitb (.mem (memDax a w2)) b)
  | 0x7 => some (.bit (.mem (memDax a w2)) b)
  | 0x8 => some (.incb (.mem (memDax a w2)) b)
  | 0x9 => some (.inc (.mem (memDax a w2)) b)
  | 0xA => some (.decb (.mem (memDax a w2)) b)
  | 0xB => some (.dec (.mem (memDax a w2)) b)
  | 0xC => some (.exb b (.mem (memDax a w2)))
  | 0xD => some (.ex b (.mem (memDax a w2)))
  | 0xE => some (.ldbSt (.mem (memDax a w2)) b)
  | _   => some (.ldSt (.mem (memDax a w2)) b)

/-- First bytes A0 to AF. -/
def decodeA (q a b : Reg) : Option Instr :=
  match q with
  | 0x0 => some (.ldb b (.src (.reg a)))
  | 0x1 => some (.ld b (.src (.reg a)))
  | 0x2 => some (.resb (.reg a) b)
  | 0x3 => some (.res (.reg a) b)
  | 0x4 => some (.setb (.reg a) b)
  | 0x5 => some (.set (.reg a) b)
  | 0x6 => some (.bitb (.reg a) b)
  | 0x7 => some (.bit (.reg a) b)
  | 0x8 => some (.incb (.reg a) b)
  | 0x9 => some (.inc (.reg a) b)
  | 0xA => some (.decb (.reg a) b)
  | 0xB => some (.dec (.reg a) b)
  | 0xC => some (.exb b (.reg a))
  | 0xD => some (.ex b (.reg a))
  | 0xE => some (.tccb (.ofBits b) a)
  | _   => some (.tcc (.ofBits b) a)

/-- A block instruction whose second word says whether it repeats: bit 3 is 1 for the one-step form (R121). -/
def decodeRep (w2 : Word) (a : Reg) (one rep : Reg → Reg → Reg → Instr) : Option Instr :=
  some ((if w2.getLsbD 3 then one else rep) w2.digit1 a w2.digit2)

/-- First byte 3A (byte): block I/O, direct I/O and special I/O. -/
def decode3A (a b : Reg) (w2 : Word) : Option Instr :=
  match b with
  | 0x0 => decodeRep w2 a .inib .inirb
  | 0x1 => decodeRep w2 a .sinib .sinirb
  | 0x2 => decodeRep w2 a .outib .otirb
  | 0x3 => decodeRep w2 a .soutib .sotirb
  | 0x4 => some (.inbDir a w2)
  | 0x5 => some (.sinb a w2)
  | 0x6 => some (.outbDir w2 a)
  | 0x7 => some (.soutb w2 a)
  | 0x8 => decodeRep w2 a .indb .indrb
  | 0x9 => decodeRep w2 a .sindb .sindrb
  | 0xA => decodeRep w2 a .outdb .otdrb
  | 0xB => decodeRep w2 a .soutdb .sotdrb
  | _ => none

/-- First byte 3B (word). -/
def decode3B (a b : Reg) (w2 : Word) : Option Instr :=
  match b with
  | 0x0 => decodeRep w2 a .ini .inir
  | 0x1 => decodeRep w2 a .sini .sinir
  | 0x2 => decodeRep w2 a .outi .otir
  | 0x3 => decodeRep w2 a .souti .sotir
  | 0x4 => some (.inDir a w2)
  | 0x5 => some (.sin a w2)
  | 0x6 => some (.outDir w2 a)
  | 0x7 => some (.sout w2 a)
  | 0x8 => decodeRep w2 a .ind .indr
  | 0x9 => decodeRep w2 a .sind .sindr
  | 0xA => decodeRep w2 a .outd .otdr
  | 0xB => decodeRep w2 a .soutd .sotdr
  | _ => none

/-- First bytes 30 to 3F: RA when the field A is 0, BA otherwise (R112). -/
def decode3 (q a b : Reg) (w2 : Word) : Option Instr :=
  match q with
  | 0x0 => if a = 0 then some (.ldrb b w2) else some (.ldb b (.based (.ba a w2)))
  | 0x1 => if a = 0 then some (.ldr b w2) else some (.ld b (.based (.ba a w2)))
  | 0x2 => if a = 0 then some (.ldrbSt w2 b) else some (.ldbSt (.based (.ba a w2)) b)
  | 0x3 => if a = 0 then some (.ldrSt w2 b) else some (.ldSt (.based (.ba a w2)) b)
  | 0x4 => if a = 0 then some (.ldar b w2) else some (.lda b (.based (.ba a w2)))
  | 0x5 => if a = 0 then some (.ldrl b w2) else some (.ldl b (.based (.ba a w2)))
  | 0x7 => if a = 0 then some (.ldrlSt w2 b) else some (.ldlSt (.based (.ba a w2)) b)
  | 0x9 => if b = 0 then some (.ldps (.ir a)) else none
  | 0xA => decode3A a b w2
  | 0xB => decode3B a b w2
  | 0xC => some (.inbInd b a)
  | 0xD => some (.inInd b a)
  | 0xE => some (.outbInd a b)
  | 0xF => some (.outInd a b)
  | _ => none

/-- The control register of an LDCTL code (`45_system.md` R440). -/
def Ctl.ofBits : BitVec 3 → Option Ctl
  | 0b010 => some .fcw
  | 0b011 => some .refresh
  | 0b101 => some .psap
  | 0b111 => some .nsp
  | _ => none

/-- The LDCTL code of a control register (`45_system.md` R440). -/
def Ctl.bits : Ctl → BitVec 3
  | .fcw => 0b010
  | .refresh => 0b011
  | .psap => 0b101
  | .nsp => 0b111

/-- First byte 7D: bit 3 is the direction, bits 2:0 the control code. -/
def decodeCtl (a b : Reg) : Option Instr :=
  match Ctl.ofBits (b.extractLsb' 0 3) with
  | some k => if b.getLsbD 3 then some (.ldctlWrite k a) else some (.ldctlRead a k)
  | none => none

/-- First byte 7B. -/
def decode7B (a b : Reg) : Option Instr :=
  match b with
  | 0x0 => if a = 0 then some .iret else none
  | 0x8 => if a = 0 then some .mset else none
  | 0x9 => if a = 0 then some .mres else none
  | 0xA => if a = 0 then some .mbit else none
  | 0xD => some (.mreq a)
  | _ => none

/-- First byte 7C: DI and EI (`45_system.md` R432, R433). -/
def decode7C (a b : Reg) : Option Instr :=
  if a = 0 then
    match b.extractLsb' 2 2 with
    | 0b00 => some (.di (b.getLsbD 1) (b.getLsbD 0))
    | 0b01 => some (.ei (b.getLsbD 1) (b.getLsbD 0))
    | _ => none
  else none

/-- First bytes 70 to 7F. -/
def decode7 (q a b : Reg) (w2 : Word) : Option Instr :=
  match q with
  | 0x0 => some (.ldb b (.based (.bx a w2.digit2)))
  | 0x1 => some (.ld b (.based (.bx a w2.digit2)))
  | 0x2 => some (.ldbSt (.based (.bx a w2.digit2)) b)
  | 0x3 => some (.ldSt (.based (.bx a w2.digit2)) b)
  | 0x4 => some (.lda b (.based (.bx a w2.digit2)))
  | 0x5 => some (.ldl b (.based (.bx a w2.digit2)))
  | 0x6 => if a = 0 then some (.lda b (.da w2)) else some (.lda b (.x w2 a))
  | 0x7 => some (.ldlSt (.based (.bx a w2.digit2)) b)
  | 0x9 => if b = 0 then some (.ldps (memDax a w2)) else none
  | 0xA => if a = 0 then (if b = 0 then some .halt else none) else none
  | 0xB => decode7B a b
  | 0xC => decode7C a b
  | 0xD => decodeCtl a b
  | 0xF => some (.sc (byteOf a b))
  | _ => none

/-- First byte B2 (byte shifts and rotates). -/
def decodeB2 (a b : Reg) (w2 : Word) : Option Instr :=
  match b with
  | 0x0 => some (.rlb a false)
  | 0x1 => some (.sllbSrlb a w2)
  | 0x2 => some (.rlb a true)
  | 0x3 => some (.sdlb a w2.digit2)
  | 0x4 => some (.rrb a false)
  | 0x6 => some (.rrb a true)
  | 0x8 => some (.rlcb a false)
  | 0x9 => some (.slabSrab a w2)
  | 0xA => some (.rlcb a true)
  | 0xB => some (.sdab a w2.digit2)
  | 0xC => some (.rrcb a false)
  | 0xE => some (.rrcb a true)
  | _ => none

/-- First byte B3 (word and long shifts, word rotates). -/
def decodeB3 (a b : Reg) (w2 : Word) : Option Instr :=
  match b with
  | 0x0 => some (.rl a false)
  | 0x1 => some (.sllSrl a w2)
  | 0x2 => some (.rl a true)
  | 0x3 => some (.sdl a w2.digit2)
  | 0x4 => some (.rr a false)
  | 0x5 => some (.slllSrll a w2)
  | 0x6 => some (.rr a true)
  | 0x7 => some (.sdll a w2.digit2)
  | 0x8 => some (.rlc a false)
  | 0x9 => some (.slaSra a w2)
  | 0xA => some (.rlc a true)
  | 0xB => some (.sda a w2.digit2)
  | 0xC => some (.rrc a false)
  | 0xD => some (.slalSral a w2)
  | 0xE => some (.rrc a true)
  | _   => some (.sdal a w2.digit2)

/-- First byte B8 (translate). -/
def decodeB8 (a b : Reg) (w2 : Word) : Option Instr :=
  match b with
  | 0x0 => some (.trib a w2.digit1 w2.digit2)
  | 0x2 => some (.trtib a w2.digit1 w2.digit2)
  | 0x4 => some (.trirb a w2.digit1 w2.digit2)
  | 0x6 => some (.trtirb a w2.digit1 w2.digit2)
  | 0x8 => some (.trdb a w2.digit1 w2.digit2)
  | 0xA => some (.trtdb a w2.digit1 w2.digit2)
  | 0xC => some (.trdrb a w2.digit1 w2.digit2)
  | 0xE => some (.trtdrb a w2.digit1 w2.digit2)
  | _ => none

/-- A block compare: the condition code is in bits 3:0 of the second word (R121). -/
def decodeCmp (w2 : Word) (a : Reg) (f : Reg → Reg → Reg → Cc → Instr) : Option Instr :=
  some (f w2.digit1 a w2.digit2 (.ofBits w2.digit0))

/-- First byte BA (byte block transfer and compare). -/
def decodeBA (a b : Reg) (w2 : Word) : Option Instr :=
  match b with
  | 0x0 => decodeCmp w2 a .cpib
  | 0x1 => decodeRep w2 a .ldib .ldirb
  | 0x2 => decodeCmp w2 a .cpsib
  | 0x4 => decodeCmp w2 a .cpirb
  | 0x6 => decodeCmp w2 a .cpsirb
  | 0x8 => decodeCmp w2 a .cpdb
  | 0x9 => decodeRep w2 a .lddb .lddrb
  | 0xA => decodeCmp w2 a .cpsdb
  | 0xC => decodeCmp w2 a .cpdrb
  | 0xE => decodeCmp w2 a .cpsdrb
  | _ => none

/-- First byte BB (word block transfer and compare). -/
def decodeBB (a b : Reg) (w2 : Word) : Option Instr :=
  match b with
  | 0x0 => decodeCmp w2 a .cpi
  | 0x1 => decodeRep w2 a .ldi .ldir
  | 0x2 => decodeCmp w2 a .cpsi
  | 0x4 => decodeCmp w2 a .cpir
  | 0x6 => decodeCmp w2 a .cpsir
  | 0x8 => decodeCmp w2 a .cpd
  | 0x9 => decodeRep w2 a .ldd .lddr
  | 0xA => decodeCmp w2 a .cpsd
  | 0xC => decodeCmp w2 a .cpdr
  | 0xE => decodeCmp w2 a .cpsdr
  | _ => none

/-- First bytes B0 to BF. -/
def decodeB (q a b : Reg) (w2 : Word) : Option Instr :=
  match q with
  | 0x0 => if b = 0 then some (.dab a) else none
  | 0x1 => match b with
    | 0x0 => some (.extsb a)
    | 0x7 => some (.extsl a)
    | 0xA => some (.exts a)
    | _ => none
  | 0x2 => decodeB2 a b w2
  | 0x3 => decodeB3 a b w2
  | 0x4 => some (.adcb b a)
  | 0x5 => some (.adc b a)
  | 0x6 => some (.sbcb b a)
  | 0x7 => some (.sbc b a)
  | 0x8 => decodeB8 a b w2
  | 0xA => decodeBA a b w2
  | 0xB => decodeBB a b w2
  | 0xC => some (.rrdb a b)
  | 0xD => some (.ldk a b)
  | 0xE => some (.rldb a b)
  | _ => none

/-- First bytes F0 to FF: bit 7 of the word says DJNZ (1) or DBJNZ (0) (R120). -/
def decodeF (q a b : Reg) : Instr :=
  if a.getLsbD 3 then .djnz q (a.extractLsb' 0 3 ++ b) else .dbjnz q (a.extractLsb' 0 3 ++ b)

/-- The instruction whose first word has the digits `p q a b` and whose next words are `w2`, `w3`
(R124, R126); `none` for an unassigned word (R127). -/
def decodeDigits (p q a b : Reg) (w2 w3 : Word) : Option Instr :=
  match p with
  | 0x0 => decode0 q a b w2
  | 0x1 => decode1 q a b w2 w3
  | 0x2 => decode2 q a b w2
  | 0x3 => decode3 q a b w2
  | 0x4 => decode4 q a b w2 w3
  | 0x5 => decode5 q a b w2 w3
  | 0x6 => decode6 q a b w2
  | 0x7 => decode7 q a b w2
  | 0x8 => decode8 q a b
  | 0x9 => decode9 q a b
  | 0xA => decodeA q a b
  | 0xB => decodeB q a b w2
  | 0xC => some (.ldbShort q (byteOf a b))
  | 0xD => some (.calr (q ++ a ++ b))
  | 0xE => some (.jr (.ofBits q) (byteOf a b))
  | _   => some (decodeF q a b)

/-- Decode a first word and the two words that follow it. -/
def decodeWords (w1 w2 w3 : Word) : Option Instr :=
  decodeDigits w1.digit3 w1.digit2 w1.digit1 w1.digit0 w2 w3

/-- Why the decoder rejects bytes: no row matches the first word (R127), or the bytes end inside the instruction. -/
inductive Reject where
  | unassigned
  | truncated
  deriving DecidableEq, Repr

/-- The decoder's answer on a list of bytes. -/
inductive Decoded where
  | ok (i : Instr) (rest : List Byte)
  | rejected (why : Reject)
  deriving DecidableEq, Repr

/-- The first big-endian word of a list of bytes (`20_memory.md` R86), 0 where bytes are missing. -/
def wordOf : List Byte → Word
  | b0 :: b1 :: _ => b0 ++ b1
  | _ => 0

/-- The big-endian bytes of words. -/
def bytesOf : List Word → List Byte
  | [] => []
  | w :: ws => w.hi :: w.lo :: bytesOf ws

/-- Decode the instruction at the front of a list of bytes. -/
def decode (bs : List Byte) : Decoded :=
  if bs.length < 2 then .rejected .truncated
  else
    match decodeWords (wordOf bs) (wordOf (bs.drop 2)) (wordOf (bs.drop 4)) with
    | none => .rejected .unassigned
    | some i =>
      if bs.length < 2 * i.words then .rejected .truncated else .ok i (bs.drop (2 * i.words))

/-! ## The encoder -/

/-- The mode digit (bits 15:14 of the first word, in place in its high digit) of a memory operand (R112). -/
def MemOp.mode : MemOp → Reg
  | .ir _ => 0x0
  | .da _ => 0x4
  | .x _ _ => 0x4

/-- The address field of a memory operand (R113). -/
def MemOp.field : MemOp → Reg
  | .ir a => a
  | .da _ => 0
  | .x _ a => a

/-- The address word of a memory operand (R114). -/
def MemOp.ext : MemOp → List Word
  | .ir _ => []
  | .da addr => [addr]
  | .x addr _ => [addr]

def RegMem.mode : RegMem → Reg
  | .reg _ => 0x8
  | .mem m => m.mode

def RegMem.field : RegMem → Reg
  | .reg n => n
  | .mem m => m.field

def RegMem.ext : RegMem → List Word
  | .reg _ => []
  | .mem m => m.ext

/-- The words of an immediate (R114); a byte is repeated in the high half (log 17). -/
def immWords : (z : Size) → z.Val → List Word
  | .b, k => [k ++ k]
  | .w, k => [k]
  | .l, k => [k.extractLsb' 16 16, k.extractLsb' 0 16]

def Src.mode {z : Size} : Src z → Reg
  | .reg _ => 0x8
  | .imm _ => 0x0
  | .mem m => m.mode

def Src.field {z : Size} : Src z → Reg
  | .reg n => n
  | .imm _ => 0
  | .mem m => m.field

def Src.ext {z : Size} : Src z → List Word
  | .reg _ => []
  | .imm k => immWords z k
  | .mem m => m.ext

/-- A based operand of the operations 30 to 37 and 70 to 77, with `q` the low digit and `b` the field B. -/
def Based.encode (q b : Reg) : Based → List Word
  | .ba a disp => [join 0x3 q a b, disp]
  | .bx a x => [join 0x7 q a b, join 0 x 0 0]

/-- LD, LDB, LDL loads: the page `p` and digit `q` of the plain modes, the digit `qb` of the based modes. -/
def LdSrc.encode {z : Size} (p q qb d : Reg) : LdSrc z → List Word
  | .src o => join (o.mode + p) q o.field d :: o.ext
  | .based o => o.encode qb d

/-- As `LdSrc.encode`, for the stores. -/
def StDst.encode (p q qb s : Reg) : StDst → List Word
  | .mem m => join (m.mode + p) q m.field s :: m.ext
  | .based o => o.encode qb s

def LaSrc.encode (d : Reg) : LaSrc → List Word
  | .da addr => [join 0x7 0x6 0 d, addr]
  | .x addr a => [join 0x7 0x6 a d, addr]
  | .based o => o.encode 0x4 d

/-- A one-operand instruction: page `p`, digit `q`, sub-operation `u` in field B (R113). -/
def RegMem.encode (p q u : Reg) (o : RegMem) : List Word := join (o.mode + p) q o.field u :: o.ext

def MemOp.encode (p q u : Reg) (m : MemOp) : List Word := join (m.mode + p) q m.field u :: m.ext

def Src.encode {z : Size} (p q d : Reg) (o : Src z) : List Word := join (o.mode + p) q o.field d :: o.ext

def EpuPage.digits : EpuPage → Reg × Reg
  | .p0E => (0x0, 0xE)
  | .p0F => (0x0, 0xF)
  | .p4E => (0x4, 0xE)
  | .p4F => (0x4, 0xF)
  | .p8E => (0x8, 0xE)
  | .p8F => (0x8, 0xF)

def Byte.digit1 (k : Byte) : Reg := k.extractLsb' 4 4
def Byte.digit0 (k : Byte) : Reg := k.extractLsb' 0 4

/-- A rotate's field B: the operation in bits 3:2, `S` in bit 1 (R123). -/
def rotField (op : BitVec 2) (twice : Bool) : Reg := op ++ BitVec.ofBool twice ++ 0#1

/-- The words of an instruction (R119 to R123); unchecked bits are 0 and repeat markers as R121 (log 17). -/
def Instr.encode : Instr → List Word
  | .ld d src => src.encode 0x2 0x1 0x1 d
  | .ldb d src => src.encode 0x2 0x0 0x0 d
  | .ldbShort d k => [join 0xC d k.digit1 k.digit0]
  | .ldl d src => src.encode 0x1 0x4 0x5 d
  | .ldSt dst s => dst.encode 0x2 0xF 0x3 s
  | .ldbSt dst s => dst.encode 0x2 0xE 0x2 s
  | .ldlSt dst s => dst.encode 0x1 0xD 0x7 s
  | .ldImm dst k => dst.encode 0x0 0xD 0x5 ++ immWords .w k
  | .ldbImm dst k => dst.encode 0x0 0xC 0x5 ++ immWords .b k
  | .ldr d disp => [join 0x3 0x1 0 d, disp]
  | .ldrSt disp s => [join 0x3 0x3 0 s, disp]
  | .ldrb d disp => [join 0x3 0x0 0 d, disp]
  | .ldrbSt disp s => [join 0x3 0x2 0 s, disp]
  | .ldrl d disp => [join 0x3 0x5 0 d, disp]
  | .ldrlSt disp s => [join 0x3 0x7 0 s, disp]
  | .lda d src => src.encode d
  | .ldar d disp => [join 0x3 0x4 0 d, disp]
  | .ldk d n => [join 0xB 0xD d n]
  | .ldm d src n => join (src.mode + 0x1) 0xC src.field 0x1 :: join 0 d 0 n :: src.ext
  | .ldmSt dst s n => join (dst.mode + 0x1) 0xC dst.field 0x9 :: join 0 s 0 n :: dst.ext
  | .clr dst => dst.encode 0x0 0xD 0x8
  | .clrb dst => dst.encode 0x0 0xC 0x8
  | .ex d src => src.encode 0x2 0xD d
  | .exb d src => src.encode 0x2 0xC d
  | .push d src => match src with
    | .reg n => [join 0x9 0x3 d n]
    | .imm k => [join 0x0 0xD d 0x9, k]
    | .mem m => join (m.mode + 0x1) 0x3 d m.field :: m.ext
  | .pushl d src => join (src.mode + 0x1) 0x1 d src.field :: src.ext
  | .pop dst s => join (dst.mode + 0x1) 0x7 s dst.field :: dst.ext
  | .popl dst s => join (dst.mode + 0x1) 0x5 s dst.field :: dst.ext
  | .add d src => src.encode 0x0 0x1 d
  | .addb d src => src.encode 0x0 0x0 d
  | .addl d src => src.encode 0x1 0x6 d
  | .adc d s => [join 0xB 0x5 s d]
  | .adcb d s => [join 0xB 0x4 s d]
  | .sub d src => src.encode 0x0 0x3 d
  | .subb d src => src.encode 0x0 0x2 d
  | .subl d src => src.encode 0x1 0x2 d
  | .sbc d s => [join 0xB 0x7 s d]
  | .sbcb d s => [join 0xB 0x6 s d]
  | .cp d src => src.encode 0x0 0xB d
  | .cpb d src => src.encode 0x0 0xA d
  | .cpl d src => src.encode 0x1 0x0 d
  | .cpImm dst k => dst.encode 0x0 0xD 0x1 ++ immWords .w k
  | .cpbImm dst k => dst.encode 0x0 0xC 0x1 ++ immWords .b k
  | .inc dst n => dst.encode 0x2 0x9 n
  | .incb dst n => dst.encode 0x2 0x8 n
  | .dec dst n => dst.encode 0x2 0xB n
  | .decb dst n => dst.encode 0x2 0xA n
  | .neg dst => dst.encode 0x0 0xD 0x2
  | .negb dst => dst.encode 0x0 0xC 0x2
  | .com dst => dst.encode 0x0 0xD 0x0
  | .comb dst => dst.encode 0x0 0xC 0x0
  | .mult d src => src.encode 0x1 0x9 d
  | .multl d src => src.encode 0x1 0x8 d
  | .div d src => src.encode 0x1 0xB d
  | .divl d src => src.encode 0x1 0xA d
  | .extsb d => [join 0xB 0x1 d 0x0]
  | .exts d => [join 0xB 0x1 d 0xA]
  | .extsl d => [join 0xB 0x1 d 0x7]
  | .dab d => [join 0xB 0x0 d 0x0]
  | .and d src => src.encode 0x0 0x7 d
  | .andb d src => src.encode 0x0 0x6 d
  | .or d src => src.encode 0x0 0x5 d
  | .orb d src => src.encode 0x0 0x4 d
  | .xor d src => src.encode 0x0 0x9 d
  | .xorb d src => src.encode 0x0 0x8 d
  | .test dst => dst.encode 0x0 0xD 0x4
  | .testb dst => dst.encode 0x0 0xC 0x4
  | .testl dst => dst.encode 0x1 0xC 0x8
  | .bit dst b => dst.encode 0x2 0x7 b
  | .bitb dst b => dst.encode 0x2 0x6 b
  | .bitDyn d s => [join 0x2 0x7 0 s, join 0 d 0 0]
  | .bitbDyn d s => [join 0x2 0x6 0 s, join 0 d 0 0]
  | .set dst b => dst.encode 0x2 0x5 b
  | .setb dst b => dst.encode 0x2 0x4 b
  | .setDyn d s => [join 0x2 0x5 0 s, join 0 d 0 0]
  | .setbDyn d s => [join 0x2 0x4 0 s, join 0 d 0 0]
  | .res dst b => dst.encode 0x2 0x3 b
  | .resb dst b => dst.encode 0x2 0x2 b
  | .resDyn d s => [join 0x2 0x3 0 s, join 0 d 0 0]
  | .resbDyn d s => [join 0x2 0x2 0 s, join 0 d 0 0]
  | .tset dst => dst.encode 0x0 0xD 0x6
  | .tsetb dst => dst.encode 0x0 0xC 0x6
  | .tcc cc d => [join 0xA 0xF d cc.bits]
  | .tccb cc d => [join 0xA 0xE d cc.bits]
  | .rl d twice => [join 0xB 0x3 d (rotField 0 twice)]
  | .rlb d twice => [join 0xB 0x2 d (rotField 0 twice)]
  | .rr d twice => [join 0xB 0x3 d (rotField 1 twice)]
  | .rrb d twice => [join 0xB 0x2 d (rotField 1 twice)]
  | .rlc d twice => [join 0xB 0x3 d (rotField 2 twice)]
  | .rlcb d twice => [join 0xB 0x2 d (rotField 2 twice)]
  | .rrc d twice => [join 0xB 0x3 d (rotField 3 twice)]
  | .rrcb d twice => [join 0xB 0x2 d (rotField 3 twice)]
  | .slaSra d count => [join 0xB 0x3 d 0x9, count]
  | .slabSrab d count => [join 0xB 0x2 d 0x9, count]
  | .slalSral d count => [join 0xB 0x3 d 0xD, count]
  | .sllSrl d count => [join 0xB 0x3 d 0x1, count]
  | .sllbSrlb d count => [join 0xB 0x2 d 0x1, count]
  | .slllSrll d count => [join 0xB 0x3 d 0x5, count]
  | .sda d s => [join 0xB 0x3 d 0xB, join 0 s 0 0]
  | .sdab d s => [join 0xB 0x2 d 0xB, join 0 s 0 0]
  | .sdal d s => [join 0xB 0x3 d 0xF, join 0 s 0 0]
  | .sdl d s => [join 0xB 0x3 d 0x3, join 0 s 0 0]
  | .sdlb d s => [join 0xB 0x2 d 0x3, join 0 s 0 0]
  | .sdll d s => [join 0xB 0x3 d 0x7, join 0 s 0 0]
  | .rldb l s => [join 0xB 0xE l s]
  | .rrdb l s => [join 0xB 0xC l s]
  | .jp cc dst => dst.encode 0x1 0xE cc.bits
  | .jr cc disp => [join 0xE cc.bits (Byte.digit1 disp) (Byte.digit0 disp)]
  | .call dst => dst.encode 0x1 0xF 0x0
  | .calr disp => [(0xD#4 ++ disp : Word)]
  | .ret cc => [join 0x9 0xE 0 cc.bits]
  | .djnz r disp => [(0xF#4 ++ r ++ 1#1 ++ disp : Word)]
  | .dbjnz r disp => [(0xF#4 ++ r ++ 0#1 ++ disp : Word)]
  | .nop => [0x8D07]
  | .halt => [0x7A00]
  | .di v n => [join 0x7 0xC 0 (0#2 ++ BitVec.ofBool v ++ BitVec.ofBool n)]
  | .ei v n => [join 0x7 0xC 0 (1#2 ++ BitVec.ofBool v ++ BitVec.ofBool n)]
  | .ldps src => match src with
    | .ir a => [join 0x3 0x9 a 0]
    | .da addr => [join 0x7 0x9 0 0, addr]
    | .x addr a => [join 0x7 0x9 a 0, addr]
  | .sc code => [join 0x7 0xF code.digit1 code.digit0]
  | .iret => [0x7B00]
  | .setflg mask => [join 0x8 0xD mask 0x1]
  | .resflg mask => [join 0x8 0xD mask 0x3]
  | .comflg mask => [join 0x8 0xD mask 0x5]
  | .ldctlRead d k => [join 0x7 0xD d (0#1 ++ k.bits)]
  | .ldctlWrite k s => [join 0x7 0xD s (1#1 ++ k.bits)]
  | .ldctlbRead d => [join 0x8 0xC d 0x1]
  | .ldctlbWrite s => [join 0x8 0xC s 0x9]
  | .mset => [0x7B08]
  | .mres => [0x7B09]
  | .mbit => [0x7B0A]
  | .mreq d => [join 0x7 0xB d 0xD]
  | .epu page op => [join page.digits.1 page.digits.2 op.digit1 op.digit0]
  | .inInd d s => [join 0x3 0xD s d]
  | .inDir d port => [join 0x3 0xB d 0x4, port]
  | .inbInd d s => [join 0x3 0xC s d]
  | .inbDir d port => [join 0x3 0xA d 0x4, port]
  | .outInd d s => [join 0x3 0xF d s]
  | .outDir port s => [join 0x3 0xB s 0x6, port]
  | .outbInd d s => [join 0x3 0xE d s]
  | .outbDir port s => [join 0x3 0xA s 0x6, port]
  | .sin d port => [join 0x3 0xB d 0x5, port]
  | .sinb d port => [join 0x3 0xA d 0x5, port]
  | .sout port s => [join 0x3 0xB s 0x7, port]
  | .soutb port s => [join 0x3 0xA s 0x7, port]
  | .ldi d s r => [join 0xB 0xB s 0x1, join 0 r d 0x8]
  | .ldir d s r => [join 0xB 0xB s 0x1, join 0 r d 0x0]
  | .ldd d s r => [join 0xB 0xB s 0x9, join 0 r d 0x8]
  | .lddr d s r => [join 0xB 0xB s 0x9, join 0 r d 0x0]
  | .ldib d s r => [join 0xB 0xA s 0x1, join 0 r d 0x8]
  | .ldirb d s r => [join 0xB 0xA s 0x1, join 0 r d 0x0]
  | .lddb d s r => [join 0xB 0xA s 0x9, join 0 r d 0x8]
  | .lddrb d s r => [join 0xB 0xA s 0x9, join 0 r d 0x0]
  | .cpi d s r cc => [join 0xB 0xB s 0x0, join 0 r d cc.bits]
  | .cpir d s r cc => [join 0xB 0xB s 0x4, join 0 r d cc.bits]
  | .cpd d s r cc => [join 0xB 0xB s 0x8, join 0 r d cc.bits]
  | .cpdr d s r cc => [join 0xB 0xB s 0xC, join 0 r d cc.bits]
  | .cpib d s r cc => [join 0xB 0xA s 0x0, join 0 r d cc.bits]
  | .cpirb d s r cc => [join 0xB 0xA s 0x4, join 0 r d cc.bits]
  | .cpdb d s r cc => [join 0xB 0xA s 0x8, join 0 r d cc.bits]
  | .cpdrb d s r cc => [join 0xB 0xA s 0xC, join 0 r d cc.bits]
  | .cpsi d s r cc => [join 0xB 0xB s 0x2, join 0 r d cc.bits]
  | .cpsir d s r cc => [join 0xB 0xB s 0x6, join 0 r d cc.bits]
  | .cpsd d s r cc => [join 0xB 0xB s 0xA, join 0 r d cc.bits]
  | .cpsdr d s r cc => [join 0xB 0xB s 0xE, join 0 r d cc.bits]
  | .cpsib d s r cc => [join 0xB 0xA s 0x2, join 0 r d cc.bits]
  | .cpsirb d s r cc => [join 0xB 0xA s 0x6, join 0 r d cc.bits]
  | .cpsdb d s r cc => [join 0xB 0xA s 0xA, join 0 r d cc.bits]
  | .cpsdrb d s r cc => [join 0xB 0xA s 0xE, join 0 r d cc.bits]
  | .trib d s r => [join 0xB 0x8 d 0x0, join 0 r s 0]
  | .trirb d s r => [join 0xB 0x8 d 0x4, join 0 r s 0]
  | .trdb d s r => [join 0xB 0x8 d 0x8, join 0 r s 0]
  | .trdrb d s r => [join 0xB 0x8 d 0xC, join 0 r s 0]
  | .trtib s1 s2 r => [join 0xB 0x8 s1 0x2, join 0 r s2 0x0]
  | .trtirb s1 s2 r => [join 0xB 0x8 s1 0x6, join 0 r s2 0xE]
  | .trtdb s1 s2 r => [join 0xB 0x8 s1 0xA, join 0 r s2 0x0]
  | .trtdrb s1 s2 r => [join 0xB 0x8 s1 0xE, join 0 r s2 0xE]
  | .ini d s r => [join 0x3 0xB s 0x0, join 0 r d 0x8]
  | .inir d s r => [join 0x3 0xB s 0x0, join 0 r d 0x0]
  | .ind d s r => [join 0x3 0xB s 0x8, join 0 r d 0x8]
  | .indr d s r => [join 0x3 0xB s 0x8, join 0 r d 0x0]
  | .inib d s r => [join 0x3 0xA s 0x0, join 0 r d 0x8]
  | .inirb d s r => [join 0x3 0xA s 0x0, join 0 r d 0x0]
  | .indb d s r => [join 0x3 0xA s 0x8, join 0 r d 0x8]
  | .indrb d s r => [join 0x3 0xA s 0x8, join 0 r d 0x0]
  | .sini d s r => [join 0x3 0xB s 0x1, join 0 r d 0x8]
  | .sinir d s r => [join 0x3 0xB s 0x1, join 0 r d 0x0]
  | .sind d s r => [join 0x3 0xB s 0x9, join 0 r d 0x8]
  | .sindr d s r => [join 0x3 0xB s 0x9, join 0 r d 0x0]
  | .sinib d s r => [join 0x3 0xA s 0x1, join 0 r d 0x8]
  | .sinirb d s r => [join 0x3 0xA s 0x1, join 0 r d 0x0]
  | .sindb d s r => [join 0x3 0xA s 0x9, join 0 r d 0x8]
  | .sindrb d s r => [join 0x3 0xA s 0x9, join 0 r d 0x0]
  | .outi d s r => [join 0x3 0xB s 0x2, join 0 r d 0x8]
  | .otir d s r => [join 0x3 0xB s 0x2, join 0 r d 0x0]
  | .outd d s r => [join 0x3 0xB s 0xA, join 0 r d 0x8]
  | .otdr d s r => [join 0x3 0xB s 0xA, join 0 r d 0x0]
  | .outib d s r => [join 0x3 0xA s 0x2, join 0 r d 0x8]
  | .otirb d s r => [join 0x3 0xA s 0x2, join 0 r d 0x0]
  | .outdb d s r => [join 0x3 0xA s 0xA, join 0 r d 0x8]
  | .otdrb d s r => [join 0x3 0xA s 0xA, join 0 r d 0x0]
  | .souti d s r => [join 0x3 0xB s 0x3, join 0 r d 0x8]
  | .sotir d s r => [join 0x3 0xB s 0x3, join 0 r d 0x0]
  | .soutd d s r => [join 0x3 0xB s 0xB, join 0 r d 0x8]
  | .sotdr d s r => [join 0x3 0xB s 0xB, join 0 r d 0x0]
  | .soutib d s r => [join 0x3 0xA s 0x3, join 0 r d 0x8]
  | .sotirb d s r => [join 0x3 0xA s 0x3, join 0 r d 0x0]
  | .soutdb d s r => [join 0x3 0xA s 0xB, join 0 r d 0x8]
  | .sotdrb d s r => [join 0x3 0xA s 0xB, join 0 r d 0x0]

/-! ## The host's word -/

/-- Word `i` of an instruction numbered as `opcode_table.json` numbers its bits: bit 0 is the least significant bit of
the first word. -/
def tableWord (nbits w i : Nat) : Word := BitVec.ofNat 16 ((w % 2 ^ nbits) >>> (16 * i))

/-- The instruction the decoder reads from an instruction whose bits are `w`, of which the table gives `nbits`; every
higher bit is 0. -/
def decodeTableWord (nbits w : Nat) : Option Instr :=
  match decode (bytesOf [tableWord nbits w 0, tableWord nbits w 1, tableWord nbits w 2]) with
  | .ok i _ => some i
  | .rejected _ => none

end Sys2Proof
end

