-- ==== Sys2Proof/Config.lean ====
section
/-! DEFINITION. Config.lean: the implementation parameters of `00_scope.md` R7 and the free values
("draws", R14), which have no body so that nothing can be proved about them. -/
namespace Sys2Proof

/-- `P_FLAGS` (`41_arithmetic.md` R263). -/
inductive FlagProfile where
  | doc | zilog
  deriving DecidableEq, Repr

/-- `P_ODD_WORD` (`20_memory.md` R90). -/
inductive OddWord where
  | forceEven | split
  deriving DecidableEq, Repr

/-- `P_PSAP_MASK`: 0xFFFF or 0xFF00 (`10_state.md` R47). -/
inductive PsapMask where
  | all | page
  deriving DecidableEq, Repr

/-- The parameters of the implementation, with the defaults of `00_scope.md` R7.
DESIGN CHOICE (log 10): they stand in State, so a statement about every state covers every value. -/
structure Config where
  flags        : FlagProfile := .doc
  oddWord      : OddWord := .forceEven
  separateData : Bool := false
  viIndexed    : Bool := false
  psapMask     : PsapMask := .all
  /-- `P_RESET_OPCODE`: none, or a mask and a match (`45_system.md` R450). -/
  resetOpcode  : Option (Word × Word) := none
  deriving DecidableEq, Repr

namespace Config

/-- What the collaborator answers to a read of a port (`20_memory.md` R85); log 4. -/
opaque freeIo (z : Size) : IoSpace → Word → Nat → z.Val
/-- What the collaborator answers to a read of a byte of memory that neither the core nor the host has written
(`20_memory.md` R96); log 2. -/
opaque freeByte : Space → Word → Byte
/-- Bits 8:0 of a read of the refresh register (`10_state.md` R48); log 8. -/
opaque freeRefresh : Nat → BitVec 9
/-- A shift's result for a count outside −w..w (`43_shift_rotate.md` R370); log 9. -/
opaque freeShift (z : Size) : Nat → z.Val
/-- C after a shift with a count outside −w..w (`43_shift_rotate.md` R370); log 9. -/
opaque freeShiftC : Nat → Bool
/-- Z after a shift with a count outside −w..w (`43_shift_rotate.md` R370); log 9. -/
opaque freeShiftZ : Nat → Bool
/-- S after a shift with a count outside −w..w (`43_shift_rotate.md` R370); log 9. -/
opaque freeShiftS : Nat → Bool
/-- V after any logical shift, and after any shift with a count outside −w..w
(`43_shift_rotate.md` R370, R371); log 9. -/
opaque freeShiftV : Nat → Bool
/-- One less than the cycles a step returns, a draw of at least 1
(`70_reset_and_hazards.md` R720); log 7. -/
opaque freeCycles : Nat → Nat

end Config
end Sys2Proof
end

