-- ==== Sys2Proof/Machine/Memory.lean ====
section
/-! DEFINITION. Machine/Memory.lean: a 64 KiB byte memory as a sparse list in one canonical form
(`20_memory.md` R80, R81). -/
namespace Sys2Proof.Machine

/-- A memory: the (address, byte) pairs that the core and the host have written, addresses rising. -/
abbrev Memory := List Host.Cell

/-- What an address that is not listed reads as: no byte of the memory's own, so the collaborator's answer is a free value
(`20_memory.md` R96, log 2). -/
def unlisted : Option Byte := none

/-- The byte written at an address. -/
def Memory.read : Memory → Nat → Option Byte
  | [], _ => unlisted
  | (k, v) :: rest, a => if k = a then some v else Memory.read rest a

/-- Write a byte, keeping the canonical form. -/
def Memory.write : Memory → Nat → Byte → Memory
  | [], a, v => [(a, v)]
  | (k, u) :: rest, a, v =>
    if a < k then (a, v) :: (k, u) :: rest
    else if k = a then (a, v) :: rest
    else (k, u) :: Memory.write rest a v

/-- The canonical form from address `lo` on. -/
def Memory.wfFrom : Nat → Memory → Bool
  | _, [] => true
  | lo, (k, _) :: rest => lo ≤ k && k < 65536 && Memory.wfFrom (k + 1) rest

/-- The canonical form: addresses strictly rising, below 65,536. No entry equals what an unlisted address reads as, which
is no byte. -/
def Memory.wf (m : Memory) : Bool := m.wfFrom 0

end Sys2Proof.Machine
end

