-- ==== Sys2Proof/Machine/State.lean ====
section
/-! DEFINITION. Machine/State.lean: the state (`10_state.md` R30 to R51, `20_memory.md` R80), the reasons of a
stop, and the state after reset. -/
namespace Sys2Proof.Machine

/-- One access to a port (`20_memory.md` R85): the core's only outputs besides memory. -/
structure IoAccess where
  space : IoSpace
  /-- true for a write, false for a read. -/
  write : Bool
  size  : Size
  port  : Word
  /-- The value written, or the value the collaborator answered. -/
  value : size.Val
  deriving DecidableEq, Repr

/-- The kind the core gives each bus access, for tracers (`20_memory.md` R100). -/
inductive AccessKind where
  | fetch | data | stack
  deriving DecidableEq, Repr

/-- The four address spaces of the bus (`20_memory.md` R80). -/
inductive BusSpace where
  | mem (sp : Space)
  | port (ios : IoSpace)
  deriving DecidableEq, Repr

/-- One call of the bus collaborator (`20_memory.md` R81, R82, R85): a byte or a word, at the address R90 gives. A long
access is two of them (R83). -/
structure BusAccess where
  kind  : AccessKind
  space : BusSpace
  /-- true for a write, false for a read. -/
  write : Bool
  size  : Size
  addr  : Word
  deriving DecidableEq, Repr

/-- The state of the machine. -/
structure State where
  /-- R0 to R14, the single storage of `10_state.md` R31. -/
  regs : Vector Word 15
  /-- The system stack pointer, R15 when FCW.SN = 1 (`10_state.md` R37). -/
  ssp : Word
  /-- The normal stack pointer, R15 when FCW.SN = 0 (`10_state.md` R37). -/
  nsp : Word
  /-- The program counter (`10_state.md` R39). -/
  pc : Word
  /-- The flag and control word (`10_state.md` R42). -/
  fcw : Word
  /-- The program status area pointer (`10_state.md` R47). -/
  psap : Word
  /-- The refresh register as last written; bits 8:0 read as a draw (`10_state.md` R48, log 8). -/
  refresh : Word
  /-- `irq_req.NVI` (`10_state.md` R49). -/
  nviReq : Bool
  /-- `irq_req.VI` (`10_state.md` R49). -/
  viReq : Bool
  /-- `vi_vector` (`10_state.md` R49). -/
  viVector : Byte
  /-- `nmi_line`, true when ASSERT (`10_state.md` R49). -/
  nmiLine : Bool
  /-- `nmi_pending` (`10_state.md` R49). -/
  nmiPending : Bool
  /-- `halt` (`10_state.md` R49). -/
  halt : Bool
  /-- `mi`, which no rule reads (`10_state.md` R49). -/
  mi : Bool
  /-- `cycles` (`10_state.md` R49). -/
  cycles : BitVec 64
  /-- `reexec` (`10_state.md` R49). -/
  reexec : Bool
  /-- `stop` (`10_state.md` R49). -/
  stop : Bool
  /-- PROG (`20_memory.md` R80). -/
  prog : Memory
  /-- DATA, used when `P_SEPARATE_DATA` is true (`20_memory.md` R80). -/
  data : Memory
  /-- The accesses made on the two port spaces, oldest first (log 5). -/
  io : List IoAccess
  /-- The bus accesses the core has made since creation with their kinds, oldest first: its output to tracers
  (`20_memory.md` R100, `70_reset_and_hazards.md` R722; log 19). -/
  bus : List BusAccess
  /-- The model's own: the index of this step for the free values (log 6). -/
  draws : Nat
  /-- The model's own: the implementation parameters, which no step changes (log 10). -/
  cfg : Config
  deriving DecidableEq, Repr

/-- Nothing in this machine stops a step with a fault: memory and ports always answer (`60_exceptions.md` R608,
`93_implementation_defined.md` I20) and every register holds a value (log 1). -/
inductive Fault where
  deriving DecidableEq, Repr

/-- Why a step is refused. -/
inductive Refusal where
  /-- Raised by an arm of `exec` that has no meaning yet; safe (the run stops). -/
  | notModelled (mnemonic : String)
  /-- Raised by EPU words with FCW.EPA = 1, where R460 says "refuse"; safe (the run stops). -/
  | epuAbsent
  /-- Raised by MSET, MRES, MBIT, MREQ in system mode, where R455 to R458 say "refuse"; safe (the run stops). -/
  | multiMicro
  deriving DecidableEq, Repr

/-- The answer of a step or of an instruction's meaning. -/
abbrev Result := Host.Outcome State Fault Refusal

/-- The state after creation, which performs `reset()` (`70_reset_and_hazards.md` R700, R701; `10_state.md` R50).
DESIGN CHOICE (log 2): the words at 0x0002 and 0x0004 that it read are those of the boot example, FCW 0x4000 and PC 0x0100
(`70_reset_and_hazards.md` R706); `bus` holds the two reads.
DESIGN CHOICE (log 1): R0 to R14, SSP and NSP, which the spec leaves without a value, are 0.
DESIGN CHOICE (log 6): `draws` is 0. -/
def State.reset : State where
  regs := Vector.replicate 15 0
  ssp := 0
  nsp := 0
  pc := 0x0100
  fcw := 0x4000
  psap := 0
  refresh := 0
  nviReq := false
  viReq := false
  viVector := 0
  nmiLine := false
  nmiPending := false
  halt := false
  mi := false
  cycles := 0
  reexec := false
  stop := false
  prog := []
  data := []
  io := []
  bus := [{ kind := .data, space := .mem .prog, write := false, size := .w, addr := 0x0002 },
    { kind := .data, space := .mem .prog, write := false, size := .w, addr := 0x0004 }]
  draws := 0
  cfg := {}

end Sys2Proof.Machine
end

