-- ==== Sys2Proof/Machine/Ops.lean ====
section
/-! DEFINITION. Machine/Ops.lean: the named operations on registers, memory and ports, taking an exception,
returning from one, and the reset sequence. -/
namespace Sys2Proof.Machine

/-! ## The flag and control word (`10_state.md` R42) -/

/-- A word with bit `i` replaced. -/
def putBit (w : Word) (i : Nat) (b : Bool) : Word :=
  if b then w ||| (1#16 <<< i) else w &&& ~~~(1#16 <<< i)

/-- FCW.SN: system mode (R44). -/
def State.sysMode (s : State) : Bool := s.fcw.getLsbD 14
/-- FCW.EPA (R42). -/
def State.epa (s : State) : Bool := s.fcw.getLsbD 13
/-- FCW.VIE (R45). -/
def State.vie (s : State) : Bool := s.fcw.getLsbD 12
/-- FCW.NVIE (R45). -/
def State.nvie (s : State) : Bool := s.fcw.getLsbD 11
def State.flagC (s : State) : Bool := s.fcw.getLsbD 7
def State.flagZ (s : State) : Bool := s.fcw.getLsbD 6
def State.flagS (s : State) : Bool := s.fcw.getLsbD 5
def State.flagV (s : State) : Bool := s.fcw.getLsbD 4
def State.flagD (s : State) : Bool := s.fcw.getLsbD 3
def State.flagH (s : State) : Bool := s.fcw.getLsbD 2

/-- `WriteFCW` (R38). -/
def State.writeFcw (s : State) (v : Word) : State := { s with fcw := v }

def State.setPc (s : State) (a : Word) : State := { s with pc := a }

/-! ## The register file (`10_state.md` R30 to R37) -/

/-- The stack pointer of the current mode (R37). -/
def State.sp (s : State) : Word := if s.sysMode then s.ssp else s.nsp

def State.setSp (s : State) (v : Word) : State :=
  if s.sysMode then { s with ssp := v } else { s with nsp := v }

/-- `RW[n]` (R32); slot 15 is the stack pointer of the current mode (R37). -/
def State.rw (s : State) (n : Reg) : Word :=
  if h : n.toNat < 15 then s.regs[n.toNat] else s.sp

/-- `RW[n] <- v`. -/
def State.setRw (s : State) (n : Reg) (v : Word) : State :=
  if h : n.toNat < 15 then { s with regs := s.regs.set n.toNat v } else s.setSp v

/-- The word register that holds the byte register `n` (R33). -/
def byteHome (n : Reg) : Reg := n &&& 7

/-- `RB[n]`: RH0 to RH7 for 0 to 7, RL0 to RL7 for 8 to 15 (R33). -/
def State.rb (s : State) (n : Reg) : Byte :=
  if n.getLsbD 3 then (s.rw (byteHome n)).lo else (s.rw (byteHome n)).hi

/-- `RB[n] <- v`: the other byte of the word is kept (R33). -/
def State.setRb (s : State) (n : Reg) (v : Byte) : State :=
  s.setRw (byteHome n)
    (if n.getLsbD 3 then (s.rw (byteHome n)).hi ++ v else v ++ (s.rw (byteHome n)).lo)

/-- `RR[n]` (R34). -/
def State.rr (s : State) (n : Reg) : Long := s.rw n ++ s.rw (n + 1)

/-- `RR[n] <- v` (R34). -/
def State.setRr (s : State) (n : Reg) (v : Long) : State :=
  (s.setRw n (v.extractLsb' 16 16)).setRw (n + 1) (v.extractLsb' 0 16)

/-- `RQ[n]` (R35). -/
def State.rq (s : State) (n : Reg) : Quad := s.rr n ++ s.rr (n + 2)

/-- `RQ[n] <- v` (R35). -/
def State.setRq (s : State) (n : Reg) (v : Quad) : State :=
  (s.setRr n (v.extractLsb' 32 32)).setRr (n + 2) (v.extractLsb' 0 32)

/-- A register through the view of a width (`30_encoding.md` R117). -/
def State.reg (s : State) : (z : Size) → Reg → z.Val
  | .b, n => s.rb n
  | .w, n => s.rw n
  | .l, n => s.rr n

/-- A register write through the view of a width. -/
def State.setReg (s : State) : (z : Size) → Reg → z.Val → State
  | .b, n, v => s.setRb n v
  | .w, n, v => s.setRw n v
  | .l, n, v => s.setRr n v

/-! ## Memory (`20_memory.md` R80 to R90) -/

/-- The memory behind a space: DATA is PROG unless `P_SEPARATE_DATA` (R80). -/
def State.mem (s : State) : Space → Memory
  | .prog => s.prog
  | .data => if s.cfg.separateData then s.data else s.prog

def State.setMem (s : State) : Space → Memory → State
  | .prog, m => { s with prog := m }
  | .data, m => if s.cfg.separateData then { s with data := m } else { s with prog := m }

/-- The space whose memory stands behind a space: PROG behind DATA unless `P_SEPARATE_DATA` (R80). -/
def State.home (s : State) : Space → Space
  | .prog => .prog
  | .data => if s.cfg.separateData then .data else .prog

/-- `MemRead(sp, a, 1)` (R81): the byte last written there by the core or the host (R94), and the collaborator's answer, a
free value, where neither has written (R96, log 2). -/
def State.readByte (s : State) (sp : Space) (a : Word) : Byte :=
  ((s.mem sp).read a.toNat).getD (Config.freeByte (s.home sp) a)

/-- `MemWrite(sp, a, 1, v)` (R81). -/
def State.writeByte (s : State) (sp : Space) (a : Word) (v : Byte) : State :=
  s.setMem sp ((s.mem sp).write a.toNat v)

/-- The address of the high byte of a word access (R90). -/
def wordAddr (c : Config) (a : Word) : Word :=
  match c.oddWord with
  | .forceEven => a &&& 0xFFFE
  | .split => a

/-- `MemRead(sp, a, 2)`: high byte first (R82, R90). -/
def State.readWord (s : State) (sp : Space) (a : Word) : Word :=
  s.readByte sp (wordAddr s.cfg a) ++ s.readByte sp (wordAddr s.cfg a + 1)

/-- `MemWrite(sp, a, 2, v)` (R82, R90). -/
def State.writeWord (s : State) (sp : Space) (a v : Word) : State :=
  (s.writeByte sp (wordAddr s.cfg a) v.hi).writeByte sp (wordAddr s.cfg a + 1) v.lo

/-- `MemRead(sp, a, 4)`: two word accesses, high word first (R83). -/
def State.readLong (s : State) (sp : Space) (a : Word) : Long :=
  s.readWord sp a ++ s.readWord sp (a + 2)

/-- `MemWrite(sp, a, 4, v)` (R83). -/
def State.writeLong (s : State) (sp : Space) (a : Word) (v : Long) : State :=
  (s.writeWord sp a (v.extractLsb' 16 16)).writeWord sp (a + 2) (v.extractLsb' 0 16)

/-- `MemRead(sp, a, n)` at a width. -/
def State.memRead (s : State) (sp : Space) : (z : Size) → Word → z.Val
  | .b, a => s.readByte sp a
  | .w, a => s.readWord sp a
  | .l, a => s.readLong sp a

/-- `MemWrite(sp, a, n, v)` at a width. -/
def State.memWrite (s : State) (sp : Space) : (z : Size) → Word → z.Val → State
  | .b, a, v => s.writeByte sp a v
  | .w, a, v => s.writeWord sp a v
  | .l, a, v => s.writeLong sp a v

/-- The addresses of the bytes an access of a width touches (R81 to R84, R90). -/
def accessBytes (c : Config) : Size → Word → List Word
  | .b, a => [a]
  | .w, a => [wordAddr c a, wordAddr c a + 1]
  | .l, a => [wordAddr c a, wordAddr c a + 1, wordAddr c (a + 2), wordAddr c (a + 2) + 1]

/-! ## Ports (`20_memory.md` R85) -/

/-- What the collaborator answers to a read of a port in this step: a free value (log 4). -/
def State.portValue (s : State) (z : Size) (ios : IoSpace) (p : Word) : z.Val :=
  Config.freeIo z ios p s.draws

/-- Record that `IoRead(ios, p, n)` took place. -/
def State.noteRead (s : State) (z : Size) (ios : IoSpace) (p : Word) : State :=
  { s with io := s.io ++ [{ space := ios, write := false, size := z, port := p, value := s.portValue z ios p }] }

/-- `IoWrite(ios, p, n, v)`. -/
def State.ioWrite (s : State) (z : Size) (ios : IoSpace) (p : Word) (v : z.Val) : State :=
  { s with io := s.io ++ [{ space := ios, write := true, size := z, port := p, value := v }] }

/-! ## The stack (`20_memory.md` R87) -/

/-- `Push(r, n, v)`. -/
def State.push (s : State) (r : Reg) (z : Size) (v : z.Val) : State :=
  (s.setRw r (s.rw r - z.bytes)).memWrite .prog z (s.rw r - z.bytes) v

/-- The value `Pop(r, n)` returns. -/
def State.popValue (s : State) (r : Reg) (z : Size) : z.Val := s.memRead .prog z (s.rw r)

/-- The register update of `Pop(r, n)`. -/
def State.popped (s : State) (r : Reg) (z : Size) : State := s.setRw r (s.rw r + z.bytes)

/-! ## Taking an exception (`60_exceptions.md` R600 to R625) -/

/-- The trap and interrupt kinds that push a frame (R601). -/
inductive Trap where
  | ext
  | priv
  | sysCall (code : Byte)
  | nmi
  | nvi
  | vi
  deriving DecidableEq, Repr

/-- The trap number T (R601). -/
def Trap.number : Trap → Word
  | .ext => 1
  | .priv => 2
  | .sysCall _ => 3
  | .nmi => 5
  | .nvi => 6
  | .vi => 7

/-- The identifier word of a frame, for T = 3 and T = 7 (R601, R624). -/
def Trap.ident (s : State) : Trap → Option Word
  | .sysCall code => some (code.zeroExtend 16)
  | .vi => some (s.viVector.zeroExtend 16)
  | _ => none

/-- The address of the new FCW: PSAP + 4·T + 2 (R602). -/
def State.vectorFcwAddr (s : State) (t : Trap) : Word := s.psap + 4 * t.number + 2

/-- The address of the new PC: PSAP + 4·T + 4 (R602), for VI under `P_VI_INDEXED` the entry of the vector (R624). -/
def State.vectorPcAddr (s : State) : Trap → Word
  | .vi =>
    if s.cfg.viIndexed then s.psap + 0x20 + 2 * s.viVector.zeroExtend 16 else s.psap + 0x20
  | t => s.psap + 4 * t.number + 4

/-- A push of one word on the system stack, whatever the mode (R620). -/
def State.pushSystem (s : State) (v : Word) : State :=
  ({ s with ssp := s.ssp - 2 } : State).writeWord .prog (s.ssp - 2) v

/-- The frame of R620: FCW, then the saved PC, then the identifier word if there is one. -/
def State.pushFrame (s : State) (savedPc : Word) (id : Option Word) : State :=
  match id with
  | none => (s.pushSystem s.fcw).pushSystem savedPc
  | some w => ((s.pushSystem s.fcw).pushSystem savedPc).pushSystem w

/-- The latch that acceptance of an interrupt clears (R625). -/
def State.clearLatch (s : State) : Trap → State
  | .nmi => { s with nmiPending := false }
  | .nvi => { s with nviReq := false }
  | .vi => { s with viReq := false }
  | _ => s

/-- Load FCW and PC from the vector and leave the Halted state (R620). -/
def State.loadVector (s : State) (t : Trap) : State :=
  { s with
    fcw := s.readWord .prog (s.vectorFcwAddr t)
    pc := s.readWord .prog (s.vectorPcAddr t)
    halt := false }

/-- `TrapEntry(T, spc, id)` (R620); the saved PC is `s.pc` (R621). -/
def State.takeTrap (s : State) (t : Trap) : State :=
  ((s.pushFrame s.pc (t.ident s)).loadVector t).clearLatch t

/-- The return from an exception: PC at R15, FCW at R15 + 2, in PROG, then R15 + 4
(`45_system.md` R436, `60_exceptions.md` R635). -/
def State.returnFromTrap (s : State) : State :=
  { s.setRw 15 (s.rw 15 + 4) with
    fcw := s.readWord .prog (s.rw 15 + 2)
    pc := s.readWord .prog (s.rw 15) }

/-- `reset()` (`70_reset_and_hazards.md` R700). DESIGN CHOICE (log 12): the registers the spec leaves without a
value become 0. -/
def State.resetSequence (s : State) : State :=
  { s with
    psap := 0
    fcw := s.readWord .prog 0x0002
    pc := s.readWord .prog 0x0004
    refresh := 0
    nmiPending := false
    nviReq := false
    viReq := false
    halt := false
    reexec := false
    regs := Vector.replicate 15 0
    ssp := 0
    nsp := 0 }

/-! ## The checks before an instruction's own effect (`60_exceptions.md` R613) -/

/-- A decode trap of R116 or R118, else go on (log 16). -/
def State.checked (s : State) (legal : Bool) (k : Result) : Result :=
  if legal then k else .next (s.takeTrap .ext)

/-- The privilege check (`45_system.md` R444). -/
def State.privileged (s : State) (k : Result) : Result :=
  if s.sysMode then k else .next (s.takeTrap .priv)

end Sys2Proof.Machine
end

