-- ==== Sys2Proof/Machine/Operands.lean ====
section
/-! DEFINITION. Machine/Operands.lean: effective addresses, operand values and the decode checks of operands
(`30_encoding.md` R112 to R118, `40_data_movement.md` R200). -/
namespace Sys2Proof.Machine

/-! ## Decode checks (R116, R118) -/

/-- A field that names an address, index, base, pointer or port register must not be 0 (R116). -/
def pointerOk (n : Reg) : Bool := n != 0

/-- A long-register field must be even (R118). -/
def evenOk (n : Reg) : Bool := !n.getLsbD 0

/-- A quad-register field must be a multiple of 4 (R118). -/
def quadOk (n : Reg) : Bool := !n.getLsbD 0 && !n.getLsbD 1

/-- A register field at a width (R117, R118). -/
def sizeOk : Size → Reg → Bool
  | .b, _ => true
  | .w, _ => true
  | .l, n => evenOk n

def MemOp.legal : MemOp → Bool
  | .ir a => pointerOk a
  | .da _ => true
  | .x _ a => pointerOk a

def RegMem.legal (z : Size) : RegMem → Bool
  | .reg n => sizeOk z n
  | .mem m => MemOp.legal m

def Src.legal {z : Size} : Src z → Bool
  | .reg n => sizeOk z n
  | .imm _ => true
  | .mem m => MemOp.legal m

def Based.legal : Based → Bool
  | .ba a _ => pointerOk a
  | .bx a x => pointerOk a && pointerOk x

def LdSrc.legal {z : Size} : LdSrc z → Bool
  | .src o => Src.legal o
  | .based o => Based.legal o

def StDst.legal : StDst → Bool
  | .mem m => MemOp.legal m
  | .based o => Based.legal o

def LaSrc.legal : LaSrc → Bool
  | .da _ => true
  | .x _ a => pointerOk a
  | .based o => Based.legal o

/-! ## Effective addresses (R115) -/

def MemOp.ea (s : State) : MemOp → Word
  | .ir a => s.rw a
  | .da addr => addr
  | .x addr a => addr + s.rw a

def Based.ea (s : State) : Based → Word
  | .ba a disp => s.rw a + disp
  | .bx a x => s.rw a + s.rw x

def StDst.ea (s : State) : StDst → Word
  | .mem m => MemOp.ea s m
  | .based o => Based.ea s o

def LaSrc.ea (s : State) : LaSrc → Word
  | .da addr => addr
  | .x addr a => addr + s.rw a
  | .based o => Based.ea s o

/-- The RA mode: `pc` is already the address after the instruction (R115). -/
def relEa (s : State) (disp : Word) : Word := s.pc + disp

/-! ## Operand values; memory operands are in DATA (`20_memory.md` R88) -/

def RegMem.value (s : State) (z : Size) : RegMem → z.Val
  | .reg n => s.reg z n
  | .mem m => s.memRead .data z (MemOp.ea s m)

def Src.value {z : Size} (s : State) : Src z → z.Val
  | .reg n => s.reg z n
  | .imm k => k
  | .mem m => s.memRead .data z (MemOp.ea s m)

def LdSrc.value {z : Size} (s : State) : LdSrc z → z.Val
  | .src o => Src.value s o
  | .based o => s.memRead .data z (Based.ea s o)

/-- Write a destination operand. -/
def RegMem.store (s : State) (z : Size) (v : z.Val) : RegMem → State
  | .reg n => s.setReg z n v
  | .mem m => s.memWrite .data z (MemOp.ea s m) v

/-- The bytes of DATA a destination operand covers, none for a register. -/
def RegMem.bytes (s : State) (z : Size) : RegMem → List Word
  | .reg _ => []
  | .mem m => accessBytes s.cfg z (MemOp.ea s m)

/-! ## Condition codes (R125) -/

/-- A condition code over given flags. -/
def Cc.test (c z s v : Bool) : Cc → Bool
  | .f   => false
  | .lt  => s ^^ v
  | .le  => z || (s ^^ v)
  | .ule => c || z
  | .ov  => v
  | .mi  => s
  | .eq  => z
  | .c   => c
  | .t   => true
  | .ge  => !(s ^^ v)
  | .gt  => !(z || (s ^^ v))
  | .ugt => !(c || z)
  | .nov => !v
  | .pl  => !s
  | .ne  => !z
  | .nc  => !c

/-- A condition code over the current flags. -/
def State.holds (s : State) (cc : Cc) : Bool := Cc.test s.flagC s.flagZ s.flagS s.flagV cc

end Sys2Proof.Machine
end

