-- ==== Sys2Proof/Machine/Flags.lean ====
section
/-! DEFINITION. Machine/Flags.lean: the flag unit (`41_arithmetic.md` R260 to R263, `42_logical_bit.md` R320,
`43_shift_rotate.md` R370, R371, R394). Every function here is pure; `State.setFlags` writes the FCW. -/
namespace Sys2Proof.Machine

/-- A write of some of the six flags; `none` leaves a flag unchanged. -/
structure FlagWrite where
  c : Option Bool := none
  z : Option Bool := none
  s : Option Bool := none
  v : Option Bool := none
  d : Option Bool := none
  h : Option Bool := none
  deriving DecidableEq, Repr

/-- Replace bit `i` when a value is given. -/
def putOpt (w : Word) (i : Nat) : Option Bool → Word
  | none => w
  | some b => putBit w i b

/-- Write the flags into an FCW word (`10_state.md` R42). -/
def FlagWrite.apply (f : FlagWrite) (w : Word) : Word :=
  putOpt (putOpt (putOpt (putOpt (putOpt (putOpt w 7 f.c) 6 f.z) 5 f.s) 4 f.v) 3 f.d) 2 f.h

def State.setFlags (s : State) (f : FlagWrite) : State := { s with fcw := f.apply s.fcw }

/-- A cell that `doc` writes and `zilog` leaves unchanged (R263). -/
def docOnly (p : FlagProfile) (b : Bool) : Option Bool :=
  match p with
  | .doc => some b
  | .zilog => none

/-- A result with its carry, zero, sign, overflow and half-carry. -/
structure AluOut (w : Nat) where
  r : BitVec w
  c : Bool
  z : Bool
  s : Bool
  v : Bool
  h : Bool
  deriving DecidableEq, Repr

/-- The bit the half-carry goes into: 12 for words, 4 for bytes (R260). -/
def halfBits (w : Nat) : Nat := if w = 8 then 4 else 12

/-- `AddFlags(w, a, b, cin)` (R260); `h` is not written by the long operations. -/
def addFlags {w : Nat} (a b : BitVec w) (cin : Bool) : AluOut w :=
  let full := a.toNat + b.toNat + cin.toNat
  let r := BitVec.ofNat w full
  { r := r
    c := 2 ^ w ≤ full
    z := r == 0
    s := r.msb
    v := (~~~(a ^^^ b) &&& (a ^^^ r)).msb
    h := 2 ^ halfBits w ≤ a.toNat % 2 ^ halfBits w + b.toNat % 2 ^ halfBits w + cin.toNat }

/-- `SubFlags(w, a, b, bin)` (R261). -/
def subFlags {w : Nat} (a b : BitVec w) (bin : Bool) : AluOut w :=
  let r := BitVec.ofInt w ((a.toNat : Int) - b.toNat - bin.toNat)
  { r := r
    c := (a.toNat : Int) - b.toNat - bin.toNat < 0
    z := r == 0
    s := r.msb
    v := ((a ^^^ b) &&& (a ^^^ r)).msb
    h := a.toNat % 2 ^ halfBits w < b.toNat % 2 ^ halfBits w + bin.toNat }

/-- `Parity(v)`: 1 for an even number of one bits (R262). -/
def parity (v : Byte) : Bool :=
  !(v.getLsbD 0 ^^ v.getLsbD 1 ^^ v.getLsbD 2 ^^ v.getLsbD 3 ^^
    v.getLsbD 4 ^^ v.getLsbD 5 ^^ v.getLsbD 6 ^^ v.getLsbD 7)

/-- `LogicFlags(w, r)` (R320). -/
def logicFlags (p : FlagProfile) : (z : Size) → z.Val → FlagWrite
  | .b, r => { c := docOnly p false, z := some (r == 0), s := some r.msb, v := some (parity r) }
  | .w, r => { c := docOnly p false, z := some (r == 0), s := some r.msb, v := docOnly p false }
  | .l, r => { c := docOnly p false, z := some (r == 0), s := some r.msb, v := docOnly p false }

/-! ## Shifts and rotates -/

/-- A result with the flags C and V; Z and S follow from the result (R371, R394). -/
structure ShiftOut (w : Nat) where
  r : BitVec w
  c : Bool
  v : Bool
  deriving DecidableEq, Repr

/-- The sign bit took a value different from its first one in a left shift by 1 to `n` (R371). -/
def signChanged {w : Nat} (x : BitVec w) : Nat → Bool
  | 0 => false
  | n + 1 => signChanged x n || ((x <<< (n + 1)).msb != x.msb)

/-- `ShlFlags(w, x, n)`, 1 ≤ n ≤ w (R371). -/
def shiftLeft {w : Nat} (x : BitVec w) (n : Nat) : ShiftOut w :=
  { r := x <<< n, c := x.getLsbD (w - n), v := signChanged x n }

/-- `ShrArith(w, x, n)`, 1 ≤ n ≤ w (R371). -/
def shiftRightArith {w : Nat} (x : BitVec w) (n : Nat) : ShiftOut w :=
  { r := x.sshiftRight n, c := x.getLsbD (n - 1), v := false }

/-- `ShrLogic(w, x, n)`, 1 ≤ n ≤ w; the V of a logical shift is a draw (R371). -/
def shiftRightLogic {w : Nat} (x : BitVec w) (n : Nat) : ShiftOut w :=
  { r := x >>> n, c := x.getLsbD (n - 1), v := false }

/-- An arithmetic shift by a signed count within −w..w; a count 0 leaves the operand and writes C and V 0 (R370). -/
def shiftArith {w : Nat} (x : BitVec w) (b : Int) : ShiftOut w :=
  if b = 0 then { r := x, c := false, v := false }
  else if 0 < b then shiftLeft x b.toNat
  else shiftRightArith x (-b).toNat

/-- A logical shift by a signed count within −w..w (R370, R371). -/
def shiftLogic {w : Nat} (x : BitVec w) (b : Int) : ShiftOut w :=
  if b = 0 then { r := x, c := false, v := false }
  else if 0 < b then shiftLeft x b.toNat
  else shiftRightLogic x (-b).toNat

/-- Whether a count is in the valid range −w ≤ b ≤ w (R370). -/
def countOk (w : Nat) (b : Int) : Bool := -(w : Int) ≤ b && b ≤ w

/-- The four rotates of the loop of R394. -/
inductive Rotate where
  | rl | rr | rlc | rrc
  deriving DecidableEq, Repr

/-- One pass of the loop of R394: the rotated value and the carry. -/
def rotateOnce {w : Nat} (k : Rotate) (x : BitVec w) (c : Bool) : BitVec w × Bool :=
  match k with
  | .rl => ((x <<< 1) ||| (BitVec.ofBool x.msb).zeroExtend w, x.msb)
  | .rlc => ((x <<< 1) ||| (BitVec.ofBool c).zeroExtend w, x.msb)
  | .rr => (((BitVec.ofBool (x.getLsbD 0)).zeroExtend w <<< (w - 1)) ||| (x >>> 1), x.getLsbD 0)
  | .rrc => (((BitVec.ofBool c).zeroExtend w <<< (w - 1)) ||| (x >>> 1), x.getLsbD 0)

/-- The loop of R394 for one bit, or two when `twice`; V says whether the sign bit left its first value. -/
def rotate {w : Nat} (k : Rotate) (x : BitVec w) (c : Bool) (twice : Bool) : ShiftOut w :=
  let one := rotateOnce k x c
  let two := rotateOnce k one.1 one.2
  if twice then { r := two.1, c := two.2, v := one.1.msb != x.msb || two.1.msb != x.msb }
  else { r := one.1, c := one.2, v := one.1.msb != x.msb }

end Sys2Proof.Machine
end

