-- ==== Sys2Proof/Machine/Arith.lean ====
section
/-! DEFINITION. Machine/Arith.lean: arithmetic (`41_arithmetic.md`). -/
namespace Sys2Proof.Machine

/-! ## Which flags an operation writes -/

/-- C, Z, S, V (long operations and compares: R266, R274). -/
def czsv {w : Nat} (_ : FlagProfile) (o : AluOut w) : FlagWrite :=
  { c := some o.c, z := some o.z, s := some o.s, v := some o.v }

/-- Word ADD, ADC, SUB, SBC: also H under `doc` (R263, R264). -/
def wordFlags {w : Nat} (p : FlagProfile) (o : AluOut w) : FlagWrite :=
  { czsv p o with h := docOnly p o.h }

/-- Byte adds: also H, and D <- 0 (R265, R295). -/
def byteAddFlags {w : Nat} (p : FlagProfile) (o : AluOut w) : FlagWrite :=
  { czsv p o with h := some o.h, d := some false }

/-- Byte subtracts: also H, and D <- 1 (R270, R295). -/
def byteSubFlags {w : Nat} (p : FlagProfile) (o : AluOut w) : FlagWrite :=
  { czsv p o with h := some o.h, d := some true }

/-- INC, INCB, DEC, DECB: C unchanged (R279). -/
def incFlags {w : Nat} (p : FlagProfile) (o : AluOut w) : FlagWrite :=
  { z := some o.z, s := some o.s, v := some o.v, h := docOnly p o.h }

/-! ## Shared operations -/

/-- Write a result to a register and its flags. -/
def aluToReg (z : Size) (d : Reg) (o : AluOut z.bits) (f : FlagProfile → AluOut z.bits → FlagWrite) (s : State) :
    Result :=
  .next ((s.setReg z d o.r).setFlags (f s.cfg.flags o))

/-- Write a result to an operand and its flags. -/
def aluToOperand (z : Size) (dst : RegMem) (o : AluOut z.bits) (f : FlagProfile → AluOut z.bits → FlagWrite)
    (s : State) : Result :=
  .next ((RegMem.store s z o.r dst).setFlags (f s.cfg.flags o))

/-- A comparison: flags only (R274). -/
def compare {w : Nat} (o : AluOut w) (s : State) : Result := .next (s.setFlags (czsv s.cfg.flags o))

/-- The operand `n` of INC and DEC, stored less one (`30_encoding.md` R123). -/
def incBy (z : Size) (n : BitVec 4) : z.Val := BitVec.ofNat z.bits (n.toNat + 1)

/-- INC and INCB (R279, R280). -/
def increment (z : Size) (dst : RegMem) (n : BitVec 4) (s : State) : Result :=
  s.checked (RegMem.legal z dst)
    (aluToOperand z dst (addFlags (RegMem.value s z dst) (incBy z n) false) incFlags s)

/-- DEC and DECB (R281, R282). -/
def decrement (z : Size) (dst : RegMem) (n : BitVec 4) (s : State) : Result :=
  s.checked (RegMem.legal z dst)
    (aluToOperand z dst (subFlags (RegMem.value s z dst) (incBy z n) false) incFlags s)

/-- The flags of NEG for the operand `x` (R283). -/
def negFlags {w : Nat} (x : BitVec w) : FlagWrite :=
  { c := some (x != 0), z := some (-x == 0), s := some (-x).msb, v := some (x == BitVec.intMin w) }

/-- NEG and NEGB (R283, R284). -/
def negate (z : Size) (dst : RegMem) (s : State) : Result :=
  s.checked (RegMem.legal z dst)
    (.next ((RegMem.store s z (-(RegMem.value s z dst)) dst).setFlags (negFlags (RegMem.value s z dst))))

/-- V of COM and COMB (R263). -/
def comV (p : FlagProfile) : (z : Size) → z.Val → Option Bool
  | .b, r => match p with
    | .doc => some false
    | .zilog => some (parity r)
  | .w, _ => docOnly p false
  | .l, _ => docOnly p false

/-- COM and COMB (R285, R286). -/
def complement (z : Size) (dst : RegMem) (s : State) : Result :=
  let r := ~~~(RegMem.value s z dst)
  s.checked (RegMem.legal z dst)
    (.next ((RegMem.store s z r dst).setFlags { z := some (r == 0), s := some r.msb, v := comV s.cfg.flags z r }))

/-- The flags of a product, with the width `w` of its factors (R287). -/
def mulFlags (w : Nat) (p : Int) : FlagWrite :=
  { c := some (decide (p < -2 ^ (w - 1)) || decide (2 ^ (w - 1) ≤ p)), z := some (p == 0), s := some (decide (p < 0)),
    v := some false }

/-- The flags of a quotient (R289). -/
def divFlags (q : Int) : FlagWrite :=
  { c := some false, z := some (q == 0), s := some (decide (q < 0)), v := some false }

/-- The divide error of R606: a zero divisor, or a quotient outside the signed range of width `w` (R289). -/
def divError (w : Nat) (n m : Int) : Bool :=
  m == 0 || decide (n.tdiv m < -2 ^ (w - 1)) || decide (2 ^ (w - 1) ≤ n.tdiv m)

/-! ## Add and subtract -/

/-- ADD Rd,src (R264). -/
def execAdd (d : Reg) (src : Src .w) (s : State) : Result :=
  s.checked (Src.legal src) (aluToReg .w d (addFlags (s.rw d) (Src.value s src) false) wordFlags s)

/-- ADDB Rbd,src (R265). -/
def execAddb (d : Reg) (src : Src .b) (s : State) : Result :=
  s.checked (Src.legal src) (aluToReg .b d (addFlags (s.rb d) (Src.value s src) false) byteAddFlags s)

/-- ADDL RRd,src (R266). -/
def execAddl (d : Reg) (src : Src .l) (s : State) : Result :=
  s.checked (evenOk d && Src.legal src) (aluToReg .l d (addFlags (s.rr d) (Src.value s src) false) czsv s)

/-- ADC Rd,Rs (R267). -/
def execAdc (d r : Reg) (s : State) : Result :=
  aluToReg .w d (addFlags (s.rw d) (s.rw r) s.flagC) wordFlags s

/-- ADCB Rbd,Rbs (R268). -/
def execAdcb (d r : Reg) (s : State) : Result :=
  aluToReg .b d (addFlags (s.rb d) (s.rb r) s.flagC) byteAddFlags s

/-- SUB Rd,src (R269). -/
def execSub (d : Reg) (src : Src .w) (s : State) : Result :=
  s.checked (Src.legal src) (aluToReg .w d (subFlags (s.rw d) (Src.value s src) false) wordFlags s)

/-- SUBB Rbd,src (R270). -/
def execSubb (d : Reg) (src : Src .b) (s : State) : Result :=
  s.checked (Src.legal src) (aluToReg .b d (subFlags (s.rb d) (Src.value s src) false) byteSubFlags s)

/-- SUBL RRd,src (R271). -/
def execSubl (d : Reg) (src : Src .l) (s : State) : Result :=
  s.checked (evenOk d && Src.legal src) (aluToReg .l d (subFlags (s.rr d) (Src.value s src) false) czsv s)

/-- SBC Rd,Rs (R272). -/
def execSbc (d r : Reg) (s : State) : Result :=
  aluToReg .w d (subFlags (s.rw d) (s.rw r) s.flagC) wordFlags s

/-- SBCB Rbd,Rbs (R273). -/
def execSbcb (d r : Reg) (s : State) : Result :=
  aluToReg .b d (subFlags (s.rb d) (s.rb r) s.flagC) byteSubFlags s

/-! ## Compare -/

/-- CP Rd,src (R274). -/
def execCp (d : Reg) (src : Src .w) (s : State) : Result :=
  s.checked (Src.legal src) (compare (subFlags (s.rw d) (Src.value s src) false) s)

/-- CPB Rbd,src (R275). -/
def execCpb (d : Reg) (src : Src .b) (s : State) : Result :=
  s.checked (Src.legal src) (compare (subFlags (s.rb d) (Src.value s src) false) s)

/-- CPL RRd,src (R276). -/
def execCpl (d : Reg) (src : Src .l) (s : State) : Result :=
  s.checked (evenOk d && Src.legal src) (compare (subFlags (s.rr d) (Src.value s src) false) s)

/-- CP dst,#imm16 (R277). -/
def execCpImm (dst : MemOp) (k : Word) (s : State) : Result :=
  s.checked (MemOp.legal dst) (compare (subFlags (s.readWord .data (MemOp.ea s dst)) k false) s)

/-- CPB dst,#imm8 (R278). -/
def execCpbImm (dst : MemOp) (k : Byte) (s : State) : Result :=
  s.checked (MemOp.legal dst) (compare (subFlags (s.readByte .data (MemOp.ea s dst)) k false) s)

/-! ## Increment, decrement, negate, complement -/

/-- INC dst,#n (R279). -/
def execInc (dst : RegMem) (n : BitVec 4) (s : State) : Result := increment .w dst n s

/-- INCB dst,#n (R280). -/
def execIncb (dst : RegMem) (n : BitVec 4) (s : State) : Result := increment .b dst n s

/-- DEC dst,#n (R281). -/
def execDec (dst : RegMem) (n : BitVec 4) (s : State) : Result := decrement .w dst n s

/-- DECB dst,#n (R282). -/
def execDecb (dst : RegMem) (n : BitVec 4) (s : State) : Result := decrement .b dst n s

/-- NEG dst (R283). -/
def execNeg (dst : RegMem) (s : State) : Result := negate .w dst s

/-- NEGB dst (R284). -/
def execNegb (dst : RegMem) (s : State) : Result := negate .b dst s

/-- COM dst (R285). -/
def execCom (dst : RegMem) (s : State) : Result := complement .w dst s

/-- COMB dst (R286). -/
def execComb (dst : RegMem) (s : State) : Result := complement .b dst s

/-! ## Multiply and divide -/

/-- MULT RRd,src: the multiplicand is the low word (R287). -/
def execMult (d : Reg) (src : Src .w) (s : State) : Result :=
  let p := (s.rw (d + 1)).toInt * (Src.value s src).toInt
  s.checked (evenOk d && Src.legal src)
    (.next ((s.setRr d (BitVec.ofInt 32 p)).setFlags (mulFlags 16 p)))

/-- MULTL RQd,src: the multiplicand is the low long (R288). -/
def execMultl (d : Reg) (src : Src .l) (s : State) : Result :=
  let p := (s.rr (d + 2)).toInt * (Src.value s src).toInt
  s.checked (quadOk d && Src.legal src)
    (.next ((s.setRq d (BitVec.ofInt 64 p)).setFlags (mulFlags 32 p)))

/-- DIV RRd,src: quotient to `RW[d + 1]`, remainder to `RW[d]`; a divide error traps (R289, R606). -/
def execDiv (d : Reg) (src : Src .w) (s : State) : Result :=
  let n := (s.rr d).toInt
  let m := (Src.value s src).toInt
  let q := n.tdiv m
  s.checked (evenOk d && Src.legal src)
    (.next (if divError 16 n m then s.takeTrap .ext
      else ((s.setRw (d + 1) (BitVec.ofInt 16 q)).setRw d (BitVec.ofInt 16 (n - q * m))).setFlags (divFlags q)))

/-- DIVL RQd,src: quotient to `RR[d + 2]`, remainder to `RR[d]` (R290). -/
def execDivl (d : Reg) (src : Src .l) (s : State) : Result :=
  let n := (s.rq d).toInt
  let m := (Src.value s src).toInt
  let q := n.tdiv m
  s.checked (quadOk d && Src.legal src)
    (.next (if divError 32 n m then s.takeTrap .ext
      else ((s.setRr (d + 2) (BitVec.ofInt 32 q)).setRr d (BitVec.ofInt 32 (n - q * m))).setFlags (divFlags q)))

/-! ## Sign extension and decimal adjust -/

/-- EXTSB Rd (R291). -/
def execExtsb (d : Reg) (s : State) : Result := .next (s.setRw d ((s.rw d).lo.signExtend 16))

/-- EXTS RRd (R292). -/
def execExts (d : Reg) (s : State) : Result :=
  s.checked (evenOk d) (.next (s.setRw d (if (s.rw (d + 1)).msb then 0xFFFF else 0)))

/-- EXTSL RQd (R293). -/
def execExtsl (d : Reg) (s : State) : Result :=
  s.checked (quadOk d) (.next (s.setRr d (if (s.rr (d + 2)).msb then 0xFFFFFFFF else 0)))

/-- The correction of DAB and its carry (R294): C, H, D before, the byte. -/
def dabCorrection (c h d : Bool) (a : Byte) : Byte × Bool :=
  if d then
    ((if h then 0x06 else 0) ||| (if c then 0x60 else 0), c)
  else
    ((if h || decide (9 < a.toNat % 16) then 0x06 else 0) ||| (if c || decide (0x99 < a.toNat) then 0x60 else 0),
      c || decide (0x99 < a.toNat))

/-- The result of DAB (R294). -/
def dabResult (c h d : Bool) (a : Byte) : Byte :=
  if d then a - (dabCorrection c h d a).1 else a + (dabCorrection c h d a).1

/-- DAB Rbd (R294). -/
def execDab (d : Reg) (s : State) : Result :=
  let r := dabResult s.flagC s.flagH s.flagD (s.rb d)
  .next ((s.setRb d r).setFlags
    { c := some (dabCorrection s.flagC s.flagH s.flagD (s.rb d)).2, z := some (r == 0), s := some r.msb })

end Sys2Proof.Machine
end

