-- ==== Sys2Proof/Machine/Bus.lean ====
section
/-! DEFINITION. Machine/Bus.lean: the bus accesses of each instruction and of each entry, in the order the rules name them,
with the kind the core gives each (`20_memory.md` R81 to R83, R87, R88, R90 to R92, R100; `70_reset_and_hazards.md` R722).
`Cycle.lean` puts the fetches before them and adds them to `State.bus`. -/
namespace Sys2Proof.Machine

/-! ## Accesses -/

/-- The bus calls of an access of a width: one, or two words for a long, the high word first (R81 to R83, R90). -/
def memAccess (c : Config) (k : AccessKind) (sp : Space) (write : Bool) : Size → Word → List BusAccess
  | .b, a => [{ kind := k, space := .mem sp, write := write, size := .b, addr := a }]
  | .w, a => [{ kind := k, space := .mem sp, write := write, size := .w, addr := wordAddr c a }]
  | .l, a =>
    [{ kind := k, space := .mem sp, write := write, size := .w, addr := wordAddr c a },
      { kind := k, space := .mem sp, write := write, size := .w, addr := wordAddr c (a + 2) }]

/-- `MemRead(DATA, a, n)`. -/
def State.reads (s : State) (z : Size) (a : Word) : List BusAccess := memAccess s.cfg .data .data false z a

/-- `MemWrite(DATA, a, n, v)`. -/
def State.writes (s : State) (z : Size) (a : Word) : List BusAccess := memAccess s.cfg .data .data true z a

/-- The read of `Pop`, in PROG (R87, R88). -/
def State.stackReads (s : State) (z : Size) (a : Word) : List BusAccess := memAccess s.cfg .stack .prog false z a

/-- The write of `Push`, in PROG (R87, R88). -/
def State.stackWrites (s : State) (z : Size) (a : Word) : List BusAccess := memAccess s.cfg .stack .prog true z a

/-- The fetches of `n` words at the PC (R86). -/
def State.fetchBus (s : State) (n : Nat) : List BusAccess :=
  (List.range n).map fun k =>
    { kind := .fetch, space := .mem .prog, write := false, size := .w, addr := wordAddr s.cfg (s.pc + BitVec.ofNat 16 (2 * k)) }

/-- An access to a port: of kind DATA, as every access that is no fetch and no stack access (R85, R100, log 19). -/
def portAccess (ios : IoSpace) (write : Bool) (z : Size) (p : Word) : List BusAccess :=
  [{ kind := .data, space := .port ios, write := write, size := z, addr := p }]

/-! ## Operands -/

def RegMem.reads (s : State) (z : Size) : RegMem → List BusAccess
  | .reg _ => []
  | .mem m => s.reads z (MemOp.ea s m)

def RegMem.writes (s : State) (z : Size) : RegMem → List BusAccess
  | .reg _ => []
  | .mem m => s.writes z (MemOp.ea s m)

/-- A destination that is read, then written (R91). -/
def RegMem.updates (s : State) (z : Size) (m : RegMem) : List BusAccess := RegMem.reads s z m ++ RegMem.writes s z m

def Src.reads {z : Size} (s : State) : Src z → List BusAccess
  | .reg _ => []
  | .imm _ => []
  | .mem m => s.reads z (MemOp.ea s m)

def LdSrc.reads {z : Size} (s : State) : LdSrc z → List BusAccess
  | .src o => Src.reads s o
  | .based o => s.reads z (Based.ea s o)

/-! ## Entries and reset -/

/-- The reads of the reset vector (R88, `70_reset_and_hazards.md` R700). -/
def resetBus (c : Config) : List BusAccess := memAccess c .data .prog false .w 0x0002 ++ memAccess c .data .prog false .w 0x0004

/-- A trap or interrupt entry: two or three writes on the system stack, then the two reads of the vector
(`60_exceptions.md` R620). -/
def State.trapBus (s : State) (t : Trap) : List BusAccess :=
  s.stackWrites .w (s.ssp - 2) ++ s.stackWrites .w (s.ssp - 4) ++
    (if (t.ident s).isSome then s.stackWrites .w (s.ssp - 6) else []) ++
    memAccess s.cfg .data .prog false .w (s.vectorFcwAddr t) ++ memAccess s.cfg .data .prog false .w (s.vectorPcAddr t)

/-! ## Shapes of several instructions -/

/-- LDM: `n + 1` words at consecutive addresses (`40_data_movement.md` R218, R219). -/
def multipleBus (s : State) (write : Bool) (a : Word) (n : BitVec 4) : List BusAccess :=
  (List.range (n.toNat + 1)).flatMap fun k => memAccess s.cfg .data .data write .w (a + BitVec.ofNat 16 (2 * k))

/-- POP and POPL: the stack read, then the write at an address computed after the increment (R226, R227). -/
def popBus (s : State) (z : Size) (dst : RegMem) (r : Reg) : List BusAccess :=
  s.stackReads z (s.rw r) ++ RegMem.writes (s.popped r z) z dst

/-- DIV and DIVL: the source, and the trap entry of a divide error (`41_arithmetic.md` R289, R290). -/
def divBus {z : Size} (s : State) (w : Nat) (n : Int) (src : Src z) : List BusAccess :=
  Src.reads s src ++ (if divError w n (Src.value s src).toInt then s.trapBus .ext else [])

/-- An iteration of a block transfer (`47_block.md` R505). -/
def moveBus (s : State) (z : Size) (d src : Reg) : List BusAccess := s.reads z (s.rw src) ++ s.writes z (s.rw d)

/-- An iteration of a string compare: source, then destination (R521). -/
def stringsBus (s : State) (z : Size) (d src : Reg) : List BusAccess := s.reads z (s.rw src) ++ s.reads z (s.rw d)

/-- The reads of a translation: the string byte, then its table byte (R561, R565). -/
def tableBus (s : State) (str table : Reg) : List BusAccess :=
  s.reads .b (s.rw str) ++ s.reads .b (s.rw table + (s.readByte .data (s.rw str)).zeroExtend 16)

/-- An iteration of a translation in place (R561). -/
def translateBus (s : State) (d table : Reg) : List BusAccess := tableBus s d table ++ s.writes .b (s.rw d)

/-- An iteration of a block input (`48_block_io.md` R529). -/
def blockInBus (s : State) (z : Size) (ios : IoSpace) (d src : Reg) : List BusAccess :=
  portAccess ios false z (s.rw src) ++ s.writes z (s.rw d)

/-- An iteration of a block output (R545). -/
def blockOutBus (s : State) (z : Size) (ios : IoSpace) (d src : Reg) : List BusAccess :=
  s.reads z (s.rw src) ++ portAccess ios true z (s.rw d)

/-! ## The instructions -/

/-- The accesses of an instruction that is well-formed and that the mode allows, after its fetches: those its rule names, in
its order. A stop (log 13, log 14) makes none. -/
def Instr.effectBus (s : State) : Instr → List BusAccess
  | .ld _ src => LdSrc.reads s src
  | .ldb _ src => LdSrc.reads s src
  | .ldbShort _ _ => []
  | .ldl _ src => LdSrc.reads s src
  | .ldSt dst _ => s.writes .w (StDst.ea s dst)
  | .ldbSt dst _ => s.writes .b (StDst.ea s dst)
  | .ldlSt dst _ => s.writes .l (StDst.ea s dst)
  | .ldImm dst _ => s.writes .w (MemOp.ea s dst)
  | .ldbImm dst _ => s.writes .b (MemOp.ea s dst)
  | .ldr _ disp => s.reads .w (relEa s disp)
  | .ldrSt disp _ => s.writes .w (relEa s disp)
  | .ldrb _ disp => s.reads .b (relEa s disp)
  | .ldrbSt disp _ => s.writes .b (relEa s disp)
  | .ldrl _ disp => s.reads .l (relEa s disp)
  | .ldrlSt disp _ => s.writes .l (relEa s disp)
  | .lda _ _ | .ldar _ _ | .ldk _ _ => []
  | .ldm _ src n => multipleBus s false (MemOp.ea s src) n
  | .ldmSt dst _ n => multipleBus s true (MemOp.ea s dst) n
  | .clr dst => RegMem.writes s .w dst
  | .clrb dst => RegMem.writes s .b dst
  | .ex _ src => RegMem.updates s .w src
  | .exb _ src => RegMem.updates s .b src
  | .push d src => Src.reads s src ++ s.stackWrites .w (s.rw d - 2)
  | .pushl d src => RegMem.reads s .l src ++ s.stackWrites .l (s.rw d - 4)
  | .pop dst r => popBus s .w dst r
  | .popl dst r => popBus s .l dst r
  | .add _ src => Src.reads s src
  | .addb _ src => Src.reads s src
  | .addl _ src => Src.reads s src
  | .adc _ _ | .adcb _ _ => []
  | .sub _ src => Src.reads s src
  | .subb _ src => Src.reads s src
  | .subl _ src => Src.reads s src
  | .sbc _ _ | .sbcb _ _ => []
  | .cp _ src => Src.reads s src
  | .cpb _ src => Src.reads s src
  | .cpl _ src => Src.reads s src
  | .cpImm dst _ => s.reads .w (MemOp.ea s dst)
  | .cpbImm dst _ => s.reads .b (MemOp.ea s dst)
  | .inc dst _ => RegMem.updates s .w dst
  | .incb dst _ => RegMem.updates s .b dst
  | .dec dst _ => RegMem.updates s .w dst
  | .decb dst _ => RegMem.updates s .b dst
  | .neg dst => RegMem.updates s .w dst
  | .negb dst => RegMem.updates s .b dst
  | .com dst => RegMem.updates s .w dst
  | .comb dst => RegMem.updates s .b dst
  | .mult _ src => Src.reads s src
  | .multl _ src => Src.reads s src
  | .div d src => divBus s 16 (s.rr d).toInt src
  | .divl d src => divBus s 32 (s.rq d).toInt src
  | .extsb _ | .exts _ | .extsl _ | .dab _ => []
  | .and _ src => Src.reads s src
  | .andb _ src => Src.reads s src
  | .or _ src => Src.reads s src
  | .orb _ src => Src.reads s src
  | .xor _ src => Src.reads s src
  | .xorb _ src => Src.reads s src
  | .test dst => RegMem.reads s .w dst
  | .testb dst => RegMem.reads s .b dst
  | .testl dst => RegMem.reads s .l dst
  | .bit dst _ => RegMem.reads s .w dst
  | .bitb dst _ => RegMem.reads s .b dst
  | .bitDyn _ _ | .bitbDyn _ _ => []
  | .set dst _ => RegMem.updates s .w dst
  | .setb dst _ => RegMem.updates s .b dst
  | .setDyn _ _ | .setbDyn _ _ => []
  | .res dst _ => RegMem.updates s .w dst
  | .resb dst _ => RegMem.updates s .b dst
  | .resDyn _ _ | .resbDyn _ _ => []
  | .tset dst => RegMem.updates s .w dst
  | .tsetb dst => RegMem.updates s .b dst
  | .tcc _ _ | .tccb _ _ | .rl _ _ | .rlb _ _ | .rr _ _ | .rrb _ _ | .rlc _ _ | .rlcb _ _ | .rrc _ _
  | .rrcb _ _ | .slaSra _ _ | .slabSrab _ _ | .slalSral _ _ | .sllSrl _ _ | .sllbSrlb _ _ | .slllSrll _ _
  | .sda _ _ | .sdab _ _ | .sdal _ _ | .sdl _ _ | .sdlb _ _ | .sdll _ _ | .rldb _ _ | .rrdb _ _ | .jp _ _
  | .jr _ _ => []
  | .call _ | .calr _ => s.stackWrites .w (s.rw 15 - 2)
  | .ret cc => if s.holds cc then s.stackReads .w (s.rw 15) else []
  | .djnz _ _ | .dbjnz _ _ | .nop | .halt | .di _ _ | .ei _ _ => []
  | .ldps src => s.reads .w (MemOp.ea s src) ++ s.reads .w (MemOp.ea s src + 2)
  | .sc code => s.trapBus (.sysCall code)
  | .iret => s.stackReads .w (s.rw 15) ++ s.stackReads .w (s.rw 15 + 2)
  | .setflg _ | .resflg _ | .comflg _ | .ldctlRead _ _ | .ldctlWrite _ _ | .ldctlbRead _ | .ldctlbWrite _
  | .mset | .mres | .mbit | .mreq _ => []
  | .epu _ _ => if s.epa then [] else s.trapBus .ext
  | .inInd _ r => portAccess .std false .w (s.rw r)
  | .inDir _ port => portAccess .std false .w port
  | .inbInd _ r => portAccess .std false .b (s.rw r)
  | .inbDir _ port => portAccess .std false .b port
  | .outInd d _ => portAccess .std true .w (s.rw d)
  | .outDir port _ => portAccess .std true .w port
  | .outbInd d _ => portAccess .std true .b (s.rw d)
  | .outbDir port _ => portAccess .std true .b port
  | .sin _ port => portAccess .special false .w port
  | .sinb _ port => portAccess .special false .b port
  | .sout port _ => portAccess .special true .w port
  | .soutb port _ => portAccess .special true .b port
  | .ldi d src _ | .ldir d src _ | .ldd d src _ | .lddr d src _ => moveBus s .w d src
  | .ldib d src _ | .ldirb d src _ | .lddb d src _ | .lddrb d src _ => moveBus s .b d src
  | .cpi _ src _ _ | .cpir _ src _ _ | .cpd _ src _ _ | .cpdr _ src _ _ => s.reads .w (s.rw src)
  | .cpib _ src _ _ | .cpirb _ src _ _ | .cpdb _ src _ _ | .cpdrb _ src _ _ => s.reads .b (s.rw src)
  | .cpsi d src _ _ | .cpsir d src _ _ | .cpsd d src _ _ | .cpsdr d src _ _ => stringsBus s .w d src
  | .cpsib d src _ _ | .cpsirb d src _ _ | .cpsdb d src _ _ | .cpsdrb d src _ _ => stringsBus s .b d src
  | .trib d table _ | .trirb d table _ | .trdb d table _ | .trdrb d table _ => translateBus s d table
  | .trtib str table _ | .trtirb str table _ | .trtdb str table _ | .trtdrb str table _ => tableBus s str table
  | .ini d src _ | .inir d src _ | .ind d src _ | .indr d src _ => blockInBus s .w .std d src
  | .inib d src _ | .inirb d src _ | .indb d src _ | .indrb d src _ => blockInBus s .b .std d src
  | .sini d src _ | .sinir d src _ | .sind d src _ | .sindr d src _ => blockInBus s .w .special d src
  | .sinib d src _ | .sinirb d src _ | .sindb d src _ | .sindrb d src _ => blockInBus s .b .special d src
  | .outi d src _ | .otir d src _ | .outd d src _ | .otdr d src _ => blockOutBus s .w .std d src
  | .outib d src _ | .otirb d src _ | .outdb d src _ | .otdrb d src _ => blockOutBus s .b .std d src
  | .souti d src _ | .sotir d src _ | .soutd d src _ | .sotdr d src _ => blockOutBus s .w .special d src
  | .soutib d src _ | .sotirb d src _ | .soutdb d src _ | .sotdrb d src _ => blockOutBus s .b .special d src

/-- The privileged instructions (`60_exceptions.md` R640). -/
def Instr.isPrivileged : Instr → Bool
  | .halt | .di _ _ | .ei _ _ | .ldctlRead _ _ | .ldctlWrite _ _ | .ldps _ | .iret
  | .mset | .mres | .mbit | .mreq _
  | .inInd _ _ | .inDir _ _ | .inbInd _ _ | .inbDir _ _
  | .outInd _ _ | .outDir _ _ | .outbInd _ _ | .outbDir _ _
  | .sin _ _ | .sinb _ _ | .sout _ _ | .soutb _ _
  | .ini _ _ _ | .inir _ _ _ | .ind _ _ _ | .indr _ _ _
  | .inib _ _ _ | .inirb _ _ _ | .indb _ _ _ | .indrb _ _ _
  | .sini _ _ _ | .sinir _ _ _ | .sind _ _ _ | .sindr _ _ _
  | .sinib _ _ _ | .sinirb _ _ _ | .sindb _ _ _ | .sindrb _ _ _
  | .outi _ _ _ | .otir _ _ _ | .outd _ _ _ | .otdr _ _ _
  | .outib _ _ _ | .otirb _ _ _ | .outdb _ _ _ | .otdrb _ _ _
  | .souti _ _ _ | .sotir _ _ _ | .soutd _ _ _ | .sotdr _ _ _
  | .soutib _ _ _ | .sotirb _ _ _ | .soutdb _ _ _ | .sotdrb _ _ _ => true
  | _ => false

/-- The accesses of an instruction after its fetches: the trap entry of a decode error, or of the privilege check, or its own
(`60_exceptions.md` R613). -/
def Instr.bus (s : State) (i : Instr) : List BusAccess :=
  if i.wf = false then s.trapBus .ext
  else if Instr.isPrivileged i && !s.sysMode then s.trapBus .priv
  else Instr.effectBus s i

end Sys2Proof.Machine
end

