-- ==== Sys2Proof/Machine/Block.lean ====
section
/-! DEFINITION. Machine/Block.lean: block transfer, compare and translate (`47_block.md`). One step is one iteration
(R500); a form that goes on sets `reexec`, and the end of the step rewinds the PC (R501). -/
namespace Sys2Proof.Machine

/-! ## Shared operations -/

/-- How a pointer moves in one iteration (R500): by the width, down or up. -/
def pointerStep (z : Size) (down : Bool) : Word := if down then -z.bytes else z.bytes

/-- Add to a pointer or count register as it stands now (R502, "Order"). -/
def State.bump (s : State) (r : Reg) (k : Word) : State := s.setRw r (s.rw r + k)

/-- The end of an iteration: decrement the count, write the flags with V saying that the count became 0, and go on
when `again` says so and the count is not 0 (R500, R504). -/
def blockEnd (s : State) (r : Reg) (f : FlagWrite) (again : Bool) : Result :=
  let s1 := s.bump r (-1)
  let zero := s1.rw r == 0
  let s2 := s1.setFlags { f with v := some zero }
  .next (if again && !zero then { s2 with reexec := true } else s2)

/-- One iteration of a block transfer (R505). -/
def blockMove (z : Size) (down repeats : Bool) (d src r : Reg) (s : State) : Result :=
  s.checked (pointerOk d && pointerOk src)
    (blockEnd (((s.memWrite .data z (s.rw d) (s.memRead .data z (s.rw src))).bump src (pointerStep z down)).bump d
      (pointerStep z down)) r {} repeats)

/-- The flags of a block compare and whether the condition holds for the pair just compared (R504). -/
def compareFlags {w : Nat} (o : AluOut w) (cc : Cc) : FlagWrite :=
  { c := some o.c, z := some (Cc.test o.c o.z o.s o.v cc), s := some o.s }

/-- One iteration of a block compare with a register (R513). -/
def blockCompare (z : Size) (down repeats : Bool) (d src r : Reg) (cc : Cc) (s : State) : Result :=
  let o := subFlags (s.reg z d) (s.memRead .data z (s.rw src)) false
  s.checked (pointerOk src)
    (blockEnd (s.bump src (pointerStep z down)) r (compareFlags o cc)
      (repeats && !Cc.test o.c o.z o.s o.v cc))

/-- One iteration of a block compare of two strings (R521). -/
def blockCompareStrings (z : Size) (down repeats : Bool) (d src r : Reg) (cc : Cc) (s : State) : Result :=
  let o := subFlags (s.memRead .data z (s.rw d)) (s.memRead .data z (s.rw src)) false
  s.checked (pointerOk d && pointerOk src)
    (blockEnd ((s.bump src (pointerStep z down)).bump d (pointerStep z down)) r (compareFlags o cc)
      (repeats && !Cc.test o.c o.z o.s o.v cc))

/-- The table byte for the string byte at a pointer (R561). -/
def translated (s : State) (str table : Reg) : Byte :=
  s.readByte .data (s.rw table + (s.readByte .data (s.rw str)).zeroExtend 16)

/-- One iteration of a translation in place (R561). -/
def blockTranslate (down repeats : Bool) (d table r : Reg) (s : State) : Result :=
  s.checked (pointerOk d && pointerOk table)
    (blockEnd ((s.writeByte .data (s.rw d) (translated s d table)).bump d (pointerStep .b down)) r {} repeats)

/-- One iteration of a translation with test: the byte goes to RH1 before the pointer moves (R565). -/
def blockTranslateTest (down repeats : Bool) (str table r : Reg) (s : State) : Result :=
  let t := translated s str table
  s.checked (pointerOk str && pointerOk table)
    (blockEnd ((s.setRb 1 t).bump str (pointerStep .b down)) r { z := some (t == 0) } (repeats && t == 0))

/-! ## Block transfer -/

/-- LDI (R505). -/
def execLdi (d src r : Reg) (s : State) : Result :=
  blockMove .w false false d src r s

/-- LDIR (R506). -/
def execLdir (d src r : Reg) (s : State) : Result :=
  blockMove .w false true d src r s

/-- LDD (R507). -/
def execLdd (d src r : Reg) (s : State) : Result :=
  blockMove .w true false d src r s

/-- LDDR (R508). -/
def execLddr (d src r : Reg) (s : State) : Result :=
  blockMove .w true true d src r s

/-- LDIB (R509). -/
def execLdib (d src r : Reg) (s : State) : Result :=
  blockMove .b false false d src r s

/-- LDIRB (R510). -/
def execLdirb (d src r : Reg) (s : State) : Result :=
  blockMove .b false true d src r s

/-- LDDB (R511). -/
def execLddb (d src r : Reg) (s : State) : Result :=
  blockMove .b true false d src r s

/-- LDDRB (R512). -/
def execLddrb (d src r : Reg) (s : State) : Result :=
  blockMove .b true true d src r s

/-! ## Block compare with a register -/

/-- CPI (R513). -/
def execCpi (d src r : Reg) (cc : Cc) (s : State) : Result :=
  blockCompare .w false false d src r cc s

/-- CPIR (R514). -/
def execCpir (d src r : Reg) (cc : Cc) (s : State) : Result :=
  blockCompare .w false true d src r cc s

/-- CPD (R515). -/
def execCpd (d src r : Reg) (cc : Cc) (s : State) : Result :=
  blockCompare .w true false d src r cc s

/-- CPDR (R516). -/
def execCpdr (d src r : Reg) (cc : Cc) (s : State) : Result :=
  blockCompare .w true true d src r cc s

/-- CPIB (R517). -/
def execCpib (d src r : Reg) (cc : Cc) (s : State) : Result :=
  blockCompare .b false false d src r cc s

/-- CPIRB (R518). -/
def execCpirb (d src r : Reg) (cc : Cc) (s : State) : Result :=
  blockCompare .b false true d src r cc s

/-- CPDB (R519). -/
def execCpdb (d src r : Reg) (cc : Cc) (s : State) : Result :=
  blockCompare .b true false d src r cc s

/-- CPDRB (R520). -/
def execCpdrb (d src r : Reg) (cc : Cc) (s : State) : Result :=
  blockCompare .b true true d src r cc s

/-! ## Block compare of two strings -/

/-- CPSI (R521). -/
def execCpsi (d src r : Reg) (cc : Cc) (s : State) : Result :=
  blockCompareStrings .w false false d src r cc s

/-- CPSIR (R522). -/
def execCpsir (d src r : Reg) (cc : Cc) (s : State) : Result :=
  blockCompareStrings .w false true d src r cc s

/-- CPSD (R523). -/
def execCpsd (d src r : Reg) (cc : Cc) (s : State) : Result :=
  blockCompareStrings .w true false d src r cc s

/-- CPSDR (R524). -/
def execCpsdr (d src r : Reg) (cc : Cc) (s : State) : Result :=
  blockCompareStrings .w true true d src r cc s

/-- CPSIB (R525). -/
def execCpsib (d src r : Reg) (cc : Cc) (s : State) : Result :=
  blockCompareStrings .b false false d src r cc s

/-- CPSIRB (R526). -/
def execCpsirb (d src r : Reg) (cc : Cc) (s : State) : Result :=
  blockCompareStrings .b false true d src r cc s

/-- CPSDB (R527). -/
def execCpsdb (d src r : Reg) (cc : Cc) (s : State) : Result :=
  blockCompareStrings .b true false d src r cc s

/-- CPSDRB (R528). -/
def execCpsdrb (d src r : Reg) (cc : Cc) (s : State) : Result :=
  blockCompareStrings .b true true d src r cc s

/-! ## Translate -/

/-- TRIB (R561). -/
def execTrib (d table r : Reg) (s : State) : Result :=
  blockTranslate false false d table r s

/-- TRIRB (R562). -/
def execTrirb (d table r : Reg) (s : State) : Result :=
  blockTranslate false true d table r s

/-- TRDB (R563). -/
def execTrdb (d table r : Reg) (s : State) : Result :=
  blockTranslate true false d table r s

/-- TRDRB (R564). -/
def execTrdrb (d table r : Reg) (s : State) : Result :=
  blockTranslate true true d table r s

/-! ## Translate and test -/

/-- TRTIB (R565). -/
def execTrtib (str table r : Reg) (s : State) : Result :=
  blockTranslateTest false false str table r s

/-- TRTIRB (R566). -/
def execTrtirb (str table r : Reg) (s : State) : Result :=
  blockTranslateTest false true str table r s

/-- TRTDB (R567). -/
def execTrtdb (str table r : Reg) (s : State) : Result :=
  blockTranslateTest true false str table r s

/-- TRTDRB (R568). -/
def execTrtdrb (str table r : Reg) (s : State) : Result :=
  blockTranslateTest true true str table r s

end Sys2Proof.Machine
end

