-- ==== Sys2Proof/Machine/BlockIo.lean ====
section
/-! DEFINITION. Machine/BlockIo.lean: block input and output (`48_block_io.md`). Privileged at every iteration
(`47_block.md` R502); one port access and one memory access per iteration, in that order for input and in the other
order for output. -/
namespace Sys2Proof.Machine

/-! ## Shared operations -/

/-- One iteration of a block input: `src` is the port register, `d` the memory pointer (R529). -/
def blockIn (z : Size) (ios : IoSpace) (down repeats : Bool) (d src r : Reg) (s : State) : Result :=
  s.checked (pointerOk d && pointerOk src) (s.privileged
    (blockEnd (((s.noteRead z ios (s.rw src)).memWrite .data z (s.rw d) (s.portValue z ios (s.rw src))).bump d
      (pointerStep z down)) r {} repeats))

/-- One iteration of a block output: `src` is the memory pointer, `d` the port register (R545). -/
def blockOut (z : Size) (ios : IoSpace) (down repeats : Bool) (d src r : Reg) (s : State) : Result :=
  s.checked (pointerOk d && pointerOk src) (s.privileged
    (blockEnd ((s.ioWrite z ios (s.rw d) (s.memRead .data z (s.rw src))).bump src (pointerStep z down)) r {} repeats))

/-! ## Block input -/

/-- INI (R529). -/
def execIni (d src r : Reg) (s : State) : Result :=
  blockIn .w .std false false d src r s

/-- INIR (R530). -/
def execInir (d src r : Reg) (s : State) : Result :=
  blockIn .w .std false true d src r s

/-- IND (R531). -/
def execInd (d src r : Reg) (s : State) : Result :=
  blockIn .w .std true false d src r s

/-- INDR (R532). -/
def execIndr (d src r : Reg) (s : State) : Result :=
  blockIn .w .std true true d src r s

/-- INIB (R533). -/
def execInib (d src r : Reg) (s : State) : Result :=
  blockIn .b .std false false d src r s

/-- INIRB (R534). -/
def execInirb (d src r : Reg) (s : State) : Result :=
  blockIn .b .std false true d src r s

/-- INDB (R535). -/
def execIndb (d src r : Reg) (s : State) : Result :=
  blockIn .b .std true false d src r s

/-- INDRB (R536). -/
def execIndrb (d src r : Reg) (s : State) : Result :=
  blockIn .b .std true true d src r s

/-! ## Special block input -/

/-- SINI (R537). -/
def execSini (d src r : Reg) (s : State) : Result :=
  blockIn .w .special false false d src r s

/-- SINIR (R538). -/
def execSinir (d src r : Reg) (s : State) : Result :=
  blockIn .w .special false true d src r s

/-- SIND (R539). -/
def execSind (d src r : Reg) (s : State) : Result :=
  blockIn .w .special true false d src r s

/-- SINDR (R540). -/
def execSindr (d src r : Reg) (s : State) : Result :=
  blockIn .w .special true true d src r s

/-- SINIB (R541). -/
def execSinib (d src r : Reg) (s : State) : Result :=
  blockIn .b .special false false d src r s

/-- SINIRB (R542). -/
def execSinirb (d src r : Reg) (s : State) : Result :=
  blockIn .b .special false true d src r s

/-- SINDB (R543). -/
def execSindb (d src r : Reg) (s : State) : Result :=
  blockIn .b .special true false d src r s

/-- SINDRB (R544). -/
def execSindrb (d src r : Reg) (s : State) : Result :=
  blockIn .b .special true true d src r s

/-! ## Block output -/

/-- OUTI (R545). -/
def execOuti (d src r : Reg) (s : State) : Result :=
  blockOut .w .std false false d src r s

/-- OTIR (R546). -/
def execOtir (d src r : Reg) (s : State) : Result :=
  blockOut .w .std false true d src r s

/-- OUTD (R547). -/
def execOutd (d src r : Reg) (s : State) : Result :=
  blockOut .w .std true false d src r s

/-- OTDR (R548). -/
def execOtdr (d src r : Reg) (s : State) : Result :=
  blockOut .w .std true true d src r s

/-- OUTIB (R549). -/
def execOutib (d src r : Reg) (s : State) : Result :=
  blockOut .b .std false false d src r s

/-- OTIRB (R550). -/
def execOtirb (d src r : Reg) (s : State) : Result :=
  blockOut .b .std false true d src r s

/-- OUTDB (R551). -/
def execOutdb (d src r : Reg) (s : State) : Result :=
  blockOut .b .std true false d src r s

/-- OTDRB (R552). -/
def execOtdrb (d src r : Reg) (s : State) : Result :=
  blockOut .b .std true true d src r s

/-! ## Special block output -/

/-- SOUTI (R553). -/
def execSouti (d src r : Reg) (s : State) : Result :=
  blockOut .w .special false false d src r s

/-- SOTIR (R554). -/
def execSotir (d src r : Reg) (s : State) : Result :=
  blockOut .w .special false true d src r s

/-- SOUTD (R555). -/
def execSoutd (d src r : Reg) (s : State) : Result :=
  blockOut .w .special true false d src r s

/-- SOTDR (R556). -/
def execSotdr (d src r : Reg) (s : State) : Result :=
  blockOut .w .special true true d src r s

/-- SOUTIB (R557). -/
def execSoutib (d src r : Reg) (s : State) : Result :=
  blockOut .b .special false false d src r s

/-- SOTIRB (R558). -/
def execSotirb (d src r : Reg) (s : State) : Result :=
  blockOut .b .special false true d src r s

/-- SOUTDB (R559). -/
def execSoutdb (d src r : Reg) (s : State) : Result :=
  blockOut .b .special true false d src r s

/-- SOTDRB (R560). -/
def execSotdrb (d src r : Reg) (s : State) : Result :=
  blockOut .b .special true true d src r s

end Sys2Proof.Machine
end

