-- ==== Sys2Proof/Machine/Control.lean ====
section
/-! DEFINITION. Machine/Control.lean: control transfer (`44_control.md`). No flag changes and no delay slot (R400). -/
namespace Sys2Proof.Machine

/-- A relative target in words (R402): forward for a positive displacement. -/
def relTarget (s : State) (disp : Word) : Word := s.pc + 2 * disp

/-- A relative target in words, subtracted (R404, R406). -/
def relTargetBack (s : State) (disp : Word) : Word := s.pc - 2 * disp

/-- JP cc,dst (R401). -/
def execJp (cc : Cc) (dst : MemOp) (s : State) : Result :=
  s.checked (MemOp.legal dst) (.next (if s.holds cc then s.setPc (MemOp.ea s dst) else s))

/-- JR cc,disp (R402). -/
def execJr (cc : Cc) (disp : BitVec 8) (s : State) : Result :=
  .next (if s.holds cc then s.setPc (relTarget s (disp.signExtend 16)) else s)

/-- CALL dst: the target is computed before the push (R403). -/
def execCall (dst : MemOp) (s : State) : Result :=
  s.checked (MemOp.legal dst) (.next ((s.push 15 .w s.pc).setPc (MemOp.ea s dst)))

/-- CALR disp (R404). -/
def execCalr (disp : BitVec 12) (s : State) : Result :=
  .next ((s.push 15 .w s.pc).setPc (relTargetBack s (disp.signExtend 16)))

/-- RET cc (R405). -/
def execRet (cc : Cc) (s : State) : Result :=
  .next (if s.holds cc then (s.popped 15 .w).setPc (s.popValue 15 .w) else s)

/-- DJNZ Rd,disp (R406). -/
def execDjnz (r : Reg) (disp : BitVec 7) (s : State) : Result :=
  let s1 := s.setRw r (s.rw r - 1)
  .next (if s1.rw r = 0 then s1 else s1.setPc (relTargetBack s (disp.zeroExtend 16)))

/-- DBJNZ Rbd,disp (R407). -/
def execDbjnz (r : Reg) (disp : BitVec 7) (s : State) : Result :=
  let s1 := s.setRb r (s.rb r - 1)
  .next (if s1.rb r = 0 then s1 else s1.setPc (relTargetBack s (disp.zeroExtend 16)))

end Sys2Proof.Machine
end

