-- ==== Sys2Proof/Machine/DataMove.lean ====
section
/-! DEFINITION. Machine/DataMove.lean: data movement (`40_data_movement.md`). No instruction here changes a flag
(R200). -/
namespace Sys2Proof.Machine

/-! ## Shared operations -/

/-- `dst <- src` with a register destination (R201 to R203). -/
def loadReg (z : Size) (d : Reg) (src : LdSrc z) (s : State) : Result :=
  s.checked (sizeOk z d && LdSrc.legal src) (.next (s.setReg z d (LdSrc.value s src)))

/-- `MemWrite(DATA, EA, n, reg)` (R204 to R206). -/
def storeReg (z : Size) (dst : StDst) (r : Reg) (s : State) : Result :=
  s.checked (sizeOk z r && StDst.legal dst) (.next (s.memWrite .data z (StDst.ea s dst) (s.reg z r)))

/-- A constant to memory (R207, R208). -/
def storeConst (z : Size) (dst : MemOp) (k : z.Val) (s : State) : Result :=
  s.checked (MemOp.legal dst) (.next (s.memWrite .data z (MemOp.ea s dst) k))

/-- A PC-relative load (R209, R211, R213). -/
def loadRel (z : Size) (d : Reg) (disp : Word) (s : State) : Result :=
  s.checked (sizeOk z d) (.next (s.setReg z d (s.memRead .data z (relEa s disp))))

/-- A PC-relative store (R210, R212, R214). -/
def storeRel (z : Size) (disp : Word) (r : Reg) (s : State) : Result :=
  s.checked (sizeOk z r) (.next (s.memWrite .data z (relEa s disp) (s.reg z r)))

/-- `count` words from DATA at `a` into `RW[d]`, `RW[d + 1]`, ... modulo 16 (R218). -/
def loadRegs (s : State) (d : Reg) (a : Word) : (count : Nat) → State
  | 0 => s
  | n + 1 => loadRegs (s.setRw d (s.readWord .data a)) (d + 1) (a + 2) n

/-- `count` words from `RW[r]`, `RW[r + 1]`, ... modulo 16 to DATA at `a` (R219). -/
def storeRegs (s : State) (r : Reg) (a : Word) : (count : Nat) → State
  | 0 => s
  | n + 1 => storeRegs (s.writeWord .data a (s.rw r)) (r + 1) (a + 2) n

/-- The bytes of DATA `storeRegs` covers. -/
def storeRegsBytes (c : Config) (a : Word) : (count : Nat) → List Word
  | 0 => []
  | n + 1 => accessBytes c .w a ++ storeRegsBytes c (a + 2) n

/-- `dst <- 0` (R220, R221). -/
def clear (z : Size) (dst : RegMem) (s : State) : Result :=
  s.checked (RegMem.legal z dst) (.next (RegMem.store s z 0 dst))

/-- Exchange a register with an operand, the effective address taken first (R222, R223). -/
def exchange (z : Size) (d : Reg) (src : RegMem) (s : State) : Result :=
  s.checked (RegMem.legal z src)
    (.next ((RegMem.store s z (s.reg z d) src).setReg z d (RegMem.value s z src)))

/-- Pop a value, then write it to an operand whose address is computed after the increment (R226, R227). -/
def popTo (z : Size) (dst : RegMem) (r : Reg) (s : State) : Result :=
  s.checked (pointerOk r && RegMem.legal z dst)
    (.next (RegMem.store (s.popped r z) z (s.popValue r z) dst))

/-! ## The instructions -/

/-- LD Rd,src (R201). -/
def execLd (d : Reg) (src : LdSrc .w) (s : State) : Result := loadReg .w d src s

/-- LDB Rbd,src (R202). -/
def execLdb (d : Reg) (src : LdSrc .b) (s : State) : Result := loadReg .b d src s

/-- LDB Rbd,#imm8, short form (R202). -/
def execLdbShort (d : Reg) (k : Byte) (s : State) : Result := .next (s.setRb d k)

/-- LDL RRd,src (R203). -/
def execLdl (d : Reg) (src : LdSrc .l) (s : State) : Result := loadReg .l d src s

/-- LD dst,Rs (R204). -/
def execLdSt (dst : StDst) (r : Reg) (s : State) : Result := storeReg .w dst r s

/-- LDB dst,Rbs (R205). -/
def execLdbSt (dst : StDst) (r : Reg) (s : State) : Result := storeReg .b dst r s

/-- LDL dst,RRs (R206). -/
def execLdlSt (dst : StDst) (r : Reg) (s : State) : Result := storeReg .l dst r s

/-- LD dst,#imm16 (R207). -/
def execLdImm (dst : MemOp) (k : Word) (s : State) : Result := storeConst .w dst k s

/-- LDB dst,#imm8 (R208). -/
def execLdbImm (dst : MemOp) (k : Byte) (s : State) : Result := storeConst .b dst k s

/-- LDR Rd,disp (R209). -/
def execLdr (d : Reg) (disp : Word) (s : State) : Result := loadRel .w d disp s

/-- LDR disp,Rs (R210). -/
def execLdrSt (disp : Word) (r : Reg) (s : State) : Result := storeRel .w disp r s

/-- LDRB Rbd,disp (R211). -/
def execLdrb (d : Reg) (disp : Word) (s : State) : Result := loadRel .b d disp s

/-- LDRB disp,Rbs (R212). -/
def execLdrbSt (disp : Word) (r : Reg) (s : State) : Result := storeRel .b disp r s

/-- LDRL RRd,disp (R213). -/
def execLdrl (d : Reg) (disp : Word) (s : State) : Result := loadRel .l d disp s

/-- LDRL disp,RRs (R214). -/
def execLdrlSt (disp : Word) (r : Reg) (s : State) : Result := storeRel .l disp r s

/-- LDA Rd,src: the effective address, no memory read (R215). -/
def execLda (d : Reg) (src : LaSrc) (s : State) : Result :=
  s.checked (LaSrc.legal src) (.next (s.setRw d (LaSrc.ea s src)))

/-- LDAR Rd,disp (R216). -/
def execLdar (d : Reg) (disp : Word) (s : State) : Result := .next (s.setRw d (relEa s disp))

/-- LDK Rd,#n (R217). -/
def execLdk (d : Reg) (n : BitVec 4) (s : State) : Result := .next (s.setRw d (n.zeroExtend 16))

/-- LDM Rd,src,#n (R218). -/
def execLdm (d : Reg) (src : MemOp) (n : BitVec 4) (s : State) : Result :=
  s.checked (MemOp.legal src) (.next (loadRegs s d (MemOp.ea s src) (n.toNat + 1)))

/-- LDM dst,Rs,#n (R219). -/
def execLdmSt (dst : MemOp) (r : Reg) (n : BitVec 4) (s : State) : Result :=
  s.checked (MemOp.legal dst) (.next (storeRegs s r (MemOp.ea s dst) (n.toNat + 1)))

/-- CLR dst (R220). -/
def execClr (dst : RegMem) (s : State) : Result := clear .w dst s

/-- CLRB dst (R221). -/
def execClrb (dst : RegMem) (s : State) : Result := clear .b dst s

/-- EX Rd,src (R222). -/
def execEx (d : Reg) (src : RegMem) (s : State) : Result := exchange .w d src s

/-- EXB Rbd,src (R223). -/
def execExb (d : Reg) (src : RegMem) (s : State) : Result := exchange .b d src s

/-- PUSH @Rd,src: the source is read before the decrement (R224). -/
def execPush (d : Reg) (src : Src .w) (s : State) : Result :=
  s.checked (pointerOk d && Src.legal src) (.next (s.push d .w (Src.value s src)))

/-- PUSHL @Rd,src (R225). -/
def execPushl (d : Reg) (src : RegMem) (s : State) : Result :=
  s.checked (pointerOk d && RegMem.legal .l src) (.next (s.push d .l (RegMem.value s .l src)))

/-- POP dst,@Rs (R226). -/
def execPop (dst : RegMem) (r : Reg) (s : State) : Result := popTo .w dst r s

/-- POPL dst,@Rs (R227). -/
def execPopl (dst : RegMem) (r : Reg) (s : State) : Result := popTo .l dst r s

end Sys2Proof.Machine
end

