-- ==== Sys2Proof/Machine/InOut.lean ====
section
/-! DEFINITION. Machine/InOut.lean: input and output (`46_io.md`). Every instruction here is privileged and makes one
port access (R470). -/
namespace Sys2Proof.Machine

/-- An input into a register: the port is read before the register is written (R471). -/
def inputReg (z : Size) (ios : IoSpace) (d : Reg) (port : Word) (s : State) : Result :=
  s.privileged (.next ((s.noteRead z ios port).setReg z d (s.portValue z ios port)))

/-- An output from a register (R475). -/
def outputReg (z : Size) (ios : IoSpace) (port : Word) (r : Reg) (s : State) : Result :=
  s.privileged (.next (s.ioWrite z ios port (s.reg z r)))

/-- IN Rd,@Rs (R471). -/
def execInInd (d r : Reg) (s : State) : Result := s.checked (pointerOk r) (inputReg .w .std d (s.rw r) s)

/-- IN Rd,#port (R472). -/
def execInDir (d : Reg) (port : Word) (s : State) : Result := inputReg .w .std d port s

/-- INB Rbd,@Rs (R473). -/
def execInbInd (d r : Reg) (s : State) : Result := s.checked (pointerOk r) (inputReg .b .std d (s.rw r) s)

/-- INB Rbd,#port (R474). -/
def execInbDir (d : Reg) (port : Word) (s : State) : Result := inputReg .b .std d port s

/-- OUT @Rd,Rs (R475). -/
def execOutInd (d r : Reg) (s : State) : Result := s.checked (pointerOk d) (outputReg .w .std (s.rw d) r s)

/-- OUT #port,Rs (R476). -/
def execOutDir (port : Word) (r : Reg) (s : State) : Result := outputReg .w .std port r s

/-- OUTB @Rd,Rbs (R477). -/
def execOutbInd (d r : Reg) (s : State) : Result := s.checked (pointerOk d) (outputReg .b .std (s.rw d) r s)

/-- OUTB #port,Rbs (R478). -/
def execOutbDir (port : Word) (r : Reg) (s : State) : Result := outputReg .b .std port r s

/-- SIN Rd,#port (R479). -/
def execSin (d : Reg) (port : Word) (s : State) : Result := inputReg .w .special d port s

/-- SINB Rbd,#port (R480). -/
def execSinb (d : Reg) (port : Word) (s : State) : Result := inputReg .b .special d port s

/-- SOUT #port,Rs (R481). -/
def execSout (port : Word) (r : Reg) (s : State) : Result := outputReg .w .special port r s

/-- SOUTB #port,Rbs (R482). -/
def execSoutb (port : Word) (r : Reg) (s : State) : Result := outputReg .b .special port r s

end Sys2Proof.Machine
end

