-- ==== Sys2Proof/Machine/Logical.lean ====
section
/-! DEFINITION. Machine/Logical.lean: logical, bit and test instructions (`42_logical_bit.md`). -/
namespace Sys2Proof.Machine

/-! ## Shared operations -/

/-- A two-operand logical instruction (R321 to R326). -/
def logicToReg (z : Size) (d : Reg) (legal : Bool) (r : z.Val) (s : State) : Result :=
  s.checked legal (.next ((s.setReg z d r).setFlags (logicFlags s.cfg.flags z r)))

/-- TEST: flags only (R327 to R329). -/
def testOperand (z : Size) (dst : RegMem) (s : State) : Result :=
  s.checked (RegMem.legal z dst) (.next (s.setFlags (logicFlags s.cfg.flags z (RegMem.value s z dst))))

/-- The bit a static bit instruction names: bits 2:0 of the field for bytes (R330, R331). -/
def bitNumber (z : Size) (b : BitVec 4) : Nat := b.toNat % z.bits

/-- The bit a dynamic bit instruction names: bits 3:0 of Rs for words, 2:0 for bytes (R332, R333). -/
def dynBitNumber (z : Size) (s : State) (r : Reg) : Nat := (s.rw r).toNat % z.bits

/-- `Z <- NOT dst[b]` (R330). -/
def bitTest (z : Size) (dst : RegMem) (i : Nat) (s : State) : Result :=
  s.checked (RegMem.legal z dst) (.next (s.setFlags { z := some (!(RegMem.value s z dst).getLsbD i) }))

/-- `dst <- dst OR (1 << b)` (R334). -/
def bitSet (z : Size) (dst : RegMem) (i : Nat) (s : State) : Result :=
  s.checked (RegMem.legal z dst) (.next (RegMem.store s z (RegMem.value s z dst ||| (1#z.bits <<< i)) dst))

/-- `dst <- dst AND NOT (1 << b)` (R338). -/
def bitReset (z : Size) (dst : RegMem) (i : Nat) (s : State) : Result :=
  s.checked (RegMem.legal z dst) (.next (RegMem.store s z (RegMem.value s z dst &&& ~~~(1#z.bits <<< i)) dst))

/-- TSET and TSETB (R342, R343). -/
def testAndSet (z : Size) (dst : RegMem) (s : State) : Result :=
  s.checked (RegMem.legal z dst)
    (.next ((RegMem.store s z (BitVec.allOnes z.bits) dst).setFlags { s := some (RegMem.value s z dst).msb }))

/-! ## Two-operand logical -/

/-- AND Rd,src (R321). -/
def execAnd (d : Reg) (src : Src .w) (s : State) : Result :=
  logicToReg .w d (Src.legal src) (s.rw d &&& Src.value s src) s

/-- ANDB Rbd,src (R322). -/
def execAndb (d : Reg) (src : Src .b) (s : State) : Result :=
  logicToReg .b d (Src.legal src) (s.rb d &&& Src.value s src) s

/-- OR Rd,src (R323). -/
def execOr (d : Reg) (src : Src .w) (s : State) : Result :=
  logicToReg .w d (Src.legal src) (s.rw d ||| Src.value s src) s

/-- ORB Rbd,src (R324). -/
def execOrb (d : Reg) (src : Src .b) (s : State) : Result :=
  logicToReg .b d (Src.legal src) (s.rb d ||| Src.value s src) s

/-- XOR Rd,src (R325). -/
def execXor (d : Reg) (src : Src .w) (s : State) : Result :=
  logicToReg .w d (Src.legal src) (s.rw d ^^^ Src.value s src) s

/-- XORB Rbd,src (R326). -/
def execXorb (d : Reg) (src : Src .b) (s : State) : Result :=
  logicToReg .b d (Src.legal src) (s.rb d ^^^ Src.value s src) s

/-! ## Test -/

/-- TEST dst (R327). -/
def execTest (dst : RegMem) (s : State) : Result := testOperand .w dst s

/-- TESTB dst (R328). -/
def execTestb (dst : RegMem) (s : State) : Result := testOperand .b dst s

/-- TESTL dst (R329). -/
def execTestl (dst : RegMem) (s : State) : Result := testOperand .l dst s

/-! ## Bit test, set and reset -/

/-- BIT dst,#b (R330). -/
def execBit (dst : RegMem) (b : BitVec 4) (s : State) : Result := bitTest .w dst (bitNumber .w b) s

/-- BITB dst,#b (R331). -/
def execBitb (dst : RegMem) (b : BitVec 4) (s : State) : Result := bitTest .b dst (bitNumber .b b) s

/-- BIT Rd,Rs (R332). -/
def execBitDyn (d r : Reg) (s : State) : Result := bitTest .w (.reg d) (dynBitNumber .w s r) s

/-- BITB Rbd,Rs (R333). -/
def execBitbDyn (d r : Reg) (s : State) : Result := bitTest .b (.reg d) (dynBitNumber .b s r) s

/-- SET dst,#b (R334). -/
def execSet (dst : RegMem) (b : BitVec 4) (s : State) : Result := bitSet .w dst (bitNumber .w b) s

/-- SETB dst,#b (R335). -/
def execSetb (dst : RegMem) (b : BitVec 4) (s : State) : Result := bitSet .b dst (bitNumber .b b) s

/-- SET Rd,Rs (R336). -/
def execSetDyn (d r : Reg) (s : State) : Result := bitSet .w (.reg d) (dynBitNumber .w s r) s

/-- SETB Rbd,Rs (R337). -/
def execSetbDyn (d r : Reg) (s : State) : Result := bitSet .b (.reg d) (dynBitNumber .b s r) s

/-- RES dst,#b (R338). -/
def execRes (dst : RegMem) (b : BitVec 4) (s : State) : Result := bitReset .w dst (bitNumber .w b) s

/-- RESB dst,#b (R339). -/
def execResb (dst : RegMem) (b : BitVec 4) (s : State) : Result := bitReset .b dst (bitNumber .b b) s

/-- RES Rd,Rs (R340). -/
def execResDyn (d r : Reg) (s : State) : Result := bitReset .w (.reg d) (dynBitNumber .w s r) s

/-- RESB Rbd,Rs (R341). -/
def execResbDyn (d r : Reg) (s : State) : Result := bitReset .b (.reg d) (dynBitNumber .b s r) s

/-! ## Test and set, test condition -/

/-- TSET dst (R342). -/
def execTset (dst : RegMem) (s : State) : Result := testAndSet .w dst s

/-- TSETB dst (R343). -/
def execTsetb (dst : RegMem) (s : State) : Result := testAndSet .b dst s

/-- TCC cc,Rd (R344). -/
def execTcc (cc : Cc) (d : Reg) (s : State) : Result :=
  .next (if s.holds cc then s.setRw d (s.rw d ||| 1) else s)

/-- TCCB cc,Rbd (R345). -/
def execTccb (cc : Cc) (d : Reg) (s : State) : Result :=
  .next (if s.holds cc then s.setRb d (s.rb d ||| 1) else s)

end Sys2Proof.Machine
end

