-- ==== Sys2Proof/Machine/Shift.lean ====
section
/-! DEFINITION. Machine/Shift.lean: shifts and rotates (`43_shift_rotate.md`). H and D are never written. -/
namespace Sys2Proof.Machine

/-! ## Shared operations -/

/-- The signed count of a count word (R370). -/
def shiftCount (k : Word) : Int := k.toInt

/-- Write a shift's result and its flags, with V given (R371). -/
def shiftResult (z : Size) (d : Reg) (o : ShiftOut z.bits) (v : Bool) (s : State) : Result :=
  .next ((s.setReg z d o.r).setFlags { c := some o.c, z := some (o.r == 0), s := some o.r.msb, v := some v })

/-- A shift by a count outside −w..w: the result and C, Z, S, V are free values (R370, log 9). -/
def shiftDrawn (z : Size) (d : Reg) (s : State) : Result :=
  .next ((s.setReg z d (Config.freeShift z s.draws)).setFlags
    { c := some (Config.freeShiftC s.draws), z := some (Config.freeShiftZ s.draws),
      s := some (Config.freeShiftS s.draws), v := some (Config.freeShiftV s.draws) })

/-- An arithmetic shift by a signed count (R380). -/
def shiftArithReg (z : Size) (d : Reg) (count : Word) (s : State) : Result :=
  let o := shiftArith (s.reg z d) (shiftCount count)
  s.checked (sizeOk z d)
    (if countOk z.bits (shiftCount count) then shiftResult z d o o.v s else shiftDrawn z d s)

/-- A logical shift by a signed count; V is a free value (R371, R383, log 9). -/
def shiftLogicReg (z : Size) (d : Reg) (count : Word) (s : State) : Result :=
  let o := shiftLogic (s.reg z d) (shiftCount count)
  s.checked (sizeOk z d)
    (if countOk z.bits (shiftCount count) then shiftResult z d o (Config.freeShiftV s.draws) s else shiftDrawn z d s)

/-- A rotate by one bit, or two (R394). -/
def rotateReg (z : Size) (k : Rotate) (d : Reg) (twice : Bool) (s : State) : Result :=
  let o := rotate k (s.reg z d) s.flagC twice
  shiftResult z d o o.v s

/-- RLDB and RRDB: write the rotated byte, then the link byte, and Z and S from the link (R392). -/
def digitRotate (l r : Reg) (newRotated newLink : Byte) (s : State) : Result :=
  .next (((s.setRb r newRotated).setRb l newLink).setFlags { z := some (newLink == 0), s := some newLink.msb })

/-! ## Rotates -/

/-- RL (R372). -/
def execRl (d : Reg) (twice : Bool) (s : State) : Result := rotateReg .w .rl d twice s

/-- RLB (R373). -/
def execRlb (d : Reg) (twice : Bool) (s : State) : Result := rotateReg .b .rl d twice s

/-- RR (R374). -/
def execRr (d : Reg) (twice : Bool) (s : State) : Result := rotateReg .w .rr d twice s

/-- RRB (R375). -/
def execRrb (d : Reg) (twice : Bool) (s : State) : Result := rotateReg .b .rr d twice s

/-- RLC (R376). -/
def execRlc (d : Reg) (twice : Bool) (s : State) : Result := rotateReg .w .rlc d twice s

/-- RLCB (R377). -/
def execRlcb (d : Reg) (twice : Bool) (s : State) : Result := rotateReg .b .rlc d twice s

/-- RRC (R378). -/
def execRrc (d : Reg) (twice : Bool) (s : State) : Result := rotateReg .w .rrc d twice s

/-- RRCB (R379). -/
def execRrcb (d : Reg) (twice : Bool) (s : State) : Result := rotateReg .b .rrc d twice s

/-! ## Shifts by an immediate count -/

/-- SLA, SRA (R380). -/
def execSlaSra (d : Reg) (count : Word) (s : State) : Result := shiftArithReg .w d count s

/-- SLAB, SRAB (R381). -/
def execSlabSrab (d : Reg) (count : Word) (s : State) : Result := shiftArithReg .b d count s

/-- SLAL, SRAL (R382). -/
def execSlalSral (d : Reg) (count : Word) (s : State) : Result := shiftArithReg .l d count s

/-- SLL, SRL (R383). -/
def execSllSrl (d : Reg) (count : Word) (s : State) : Result := shiftLogicReg .w d count s

/-- SLLB, SRLB (R384). -/
def execSllbSrlb (d : Reg) (count : Word) (s : State) : Result := shiftLogicReg .b d count s

/-- SLLL, SRLL (R385). -/
def execSlllSrll (d : Reg) (count : Word) (s : State) : Result := shiftLogicReg .l d count s

/-! ## Shifts by a register count -/

/-- SDA (R386). -/
def execSda (d r : Reg) (s : State) : Result := shiftArithReg .w d (s.rw r) s

/-- SDAB (R387). -/
def execSdab (d r : Reg) (s : State) : Result := shiftArithReg .b d (s.rw r) s

/-- SDAL (R388). -/
def execSdal (d r : Reg) (s : State) : Result := shiftArithReg .l d (s.rw r) s

/-- SDL (R389). -/
def execSdl (d r : Reg) (s : State) : Result := shiftLogicReg .w d (s.rw r) s

/-- SDLB (R390). -/
def execSdlb (d r : Reg) (s : State) : Result := shiftLogicReg .b d (s.rw r) s

/-- SDLL (R391). -/
def execSdll (d r : Reg) (s : State) : Result := shiftLogicReg .l d (s.rw r) s

/-! ## Digit rotates -/

/-- RLDB Rbl,Rbs (R392). -/
def execRldb (l r : Reg) (s : State) : Result :=
  digitRotate l r (Byte.digit0 (s.rb r) ++ Byte.digit0 (s.rb l)) (Byte.digit1 (s.rb l) ++ Byte.digit1 (s.rb r)) s

/-- RRDB Rbl,Rbs (R393). -/
def execRrdb (l r : Reg) (s : State) : Result :=
  digitRotate l r (Byte.digit0 (s.rb l) ++ Byte.digit1 (s.rb r)) (Byte.digit1 (s.rb l) ++ Byte.digit0 (s.rb r)) s

end Sys2Proof.Machine
end

