-- ==== Sys2Proof/Machine/System.lean ====
section
/-! DEFINITION. Machine/System.lean: system and control-register instructions (`45_system.md`). -/
namespace Sys2Proof.Machine

/-! ## Shared operations -/

/-- Replace the interrupt enables a DI or EI selects; a field bit 0 selects (R432, R433). -/
def setEnables (s : State) (v n : Bool) (b : Bool) : State :=
  let w := if v then s.fcw else putBit s.fcw 12 b
  s.writeFcw (if n then w else putBit w 11 b)

/-- The FCW with the flags C, Z, S, V whose mask bit is 1 replaced by a function of their value (R437). -/
def maskedFlags (s : State) (mask : BitVec 4) (f : Bool → Bool) : FlagWrite :=
  { c := if mask.getLsbD 3 then some (f s.flagC) else none
    z := if mask.getLsbD 2 then some (f s.flagZ) else none
    s := if mask.getLsbD 1 then some (f s.flagS) else none
    v := if mask.getLsbD 0 then some (f s.flagV) else none }

/-- `v AND P_PSAP_MASK` (`10_state.md` R47). -/
def maskPsap (m : PsapMask) (v : Word) : Word :=
  match m with
  | .all => v
  | .page => v &&& 0xFF00

/-- What a read of the refresh register gives: bits 15:9 as written, bits 8:0 a free value
(`10_state.md` R48, log 8). -/
def State.refreshValue (s : State) : Word := s.refresh.extractLsb' 9 7 ++ Config.freeRefresh s.draws

/-- What LDCTL reads (R440). -/
def ctlValue (s : State) : Ctl → Word
  | .fcw => s.fcw
  | .refresh => s.refreshValue
  | .psap => s.psap
  | .nsp => s.nsp

/-- What LDCTL writes (R441). -/
def writeCtl (s : State) (v : Word) : Ctl → State
  | .fcw => s.writeFcw v
  | .refresh => { s with refresh := v }
  | .psap => { s with psap := maskPsap s.cfg.psapMask v }
  | .nsp => { s with nsp := v }

/-! ## No operation, halt, interrupt masks -/

/-- NOP (R430). -/
def execNop (s : State) : Result := .next s

/-- HALT (R431). -/
def execHalt (s : State) : Result := s.privileged (.next { s with halt := true })

/-- DI (R432). -/
def execDi (v n : Bool) (s : State) : Result := s.privileged (.next (setEnables s v n false))

/-- EI (R433). -/
def execEi (v n : Bool) (s : State) : Result := s.privileged (.next (setEnables s v n true))

/-! ## Program status -/

/-- LDPS src: FCW at EA, PC at EA + 2, in DATA (R434). -/
def execLdps (src : MemOp) (s : State) : Result :=
  s.checked (MemOp.legal src) (s.privileged
    (.next ((s.writeFcw (s.readWord .data (MemOp.ea s src))).setPc (s.readWord .data (MemOp.ea s src + 2)))))

/-- SC #code (R435): the effect is the system-call trap. -/
def execSc (code : Byte) (s : State) : Result := .next (s.takeTrap (.sysCall code))

/-- IRET (R436). -/
def execIret (s : State) : Result := s.privileged (.next s.returnFromTrap)

/-! ## Flag instructions -/

/-- SETFLG (R437). -/
def execSetflg (mask : BitVec 4) (s : State) : Result := .next (s.setFlags (maskedFlags s mask fun _ => true))

/-- RESFLG (R438). -/
def execResflg (mask : BitVec 4) (s : State) : Result := .next (s.setFlags (maskedFlags s mask fun _ => false))

/-- COMFLG (R439). -/
def execComflg (mask : BitVec 4) (s : State) : Result := .next (s.setFlags (maskedFlags s mask not))

/-! ## Control registers -/

/-- LDCTL Rd,ctl (R440). -/
def execLdctlRead (d : Reg) (k : Ctl) (s : State) : Result := s.privileged (.next (s.setRw d (ctlValue s k)))

/-- LDCTL ctl,Rs (R441). -/
def execLdctlWrite (k : Ctl) (r : Reg) (s : State) : Result := s.privileged (.next (writeCtl s (s.rw r) k))

/-- LDCTLB Rbd,FLAGS (R442); not privileged. -/
def execLdctlbRead (d : Reg) (s : State) : Result := .next (s.setRb d (Word.lo s.fcw))

/-- LDCTLB FLAGS,Rbs (R443): FCW bits 15:8 are kept. -/
def execLdctlbWrite (r : Reg) (s : State) : Result := .next (s.writeFcw (Word.hi s.fcw ++ s.rb r))

/-! ## Instructions the spec refuses (log 13, log 14) -/

/-- MSET (R455). -/
def execMset (s : State) : Result := s.privileged (.refused .multiMicro)

/-- MRES (R456). -/
def execMres (s : State) : Result := s.privileged (.refused .multiMicro)

/-- MBIT (R457). -/
def execMbit (s : State) : Result := s.privileged (.refused .multiMicro)

/-- MREQ Rd (R458). -/
def execMreq (_d : Reg) (s : State) : Result := s.privileged (.refused .multiMicro)

/-- An EPU word (R460): a trap when FCW.EPA = 0, else refused. -/
def execEpu (_page : EpuPage) (_op : Byte) (s : State) : Result :=
  if s.epa then .refused .epuAbsent else .next (s.takeTrap .ext)

end Sys2Proof.Machine
end

