-- ==== Sys2Proof/Machine/Dispatch.lean ====
section
/-! DEFINITION. Machine/Dispatch.lean: one arm per instruction. The state `exec` is given has its PC after the whole
instruction (`10_state.md` R40). -/
namespace Sys2Proof.Machine

def exec (i : Instr) (s : State) : Host.Outcome State Fault Refusal :=
  match i with
  | .ld d src => Sys2Proof.Machine.execLd d src s
  | .ldb d src => Sys2Proof.Machine.execLdb d src s
  | .ldbShort d k => Sys2Proof.Machine.execLdbShort d k s
  | .ldl d src => Sys2Proof.Machine.execLdl d src s
  | .ldSt dst t => Sys2Proof.Machine.execLdSt dst t s
  | .ldbSt dst t => Sys2Proof.Machine.execLdbSt dst t s
  | .ldlSt dst t => Sys2Proof.Machine.execLdlSt dst t s
  | .ldImm dst k => Sys2Proof.Machine.execLdImm dst k s
  | .ldbImm dst k => Sys2Proof.Machine.execLdbImm dst k s
  | .ldr d disp => Sys2Proof.Machine.execLdr d disp s
  | .ldrSt disp t => Sys2Proof.Machine.execLdrSt disp t s
  | .ldrb d disp => Sys2Proof.Machine.execLdrb d disp s
  | .ldrbSt disp t => Sys2Proof.Machine.execLdrbSt disp t s
  | .ldrl d disp => Sys2Proof.Machine.execLdrl d disp s
  | .ldrlSt disp t => Sys2Proof.Machine.execLdrlSt disp t s
  | .lda d src => Sys2Proof.Machine.execLda d src s
  | .ldar d disp => Sys2Proof.Machine.execLdar d disp s
  | .ldk d n => Sys2Proof.Machine.execLdk d n s
  | .ldm d src n => Sys2Proof.Machine.execLdm d src n s
  | .ldmSt dst t n => Sys2Proof.Machine.execLdmSt dst t n s
  | .clr dst => Sys2Proof.Machine.execClr dst s
  | .clrb dst => Sys2Proof.Machine.execClrb dst s
  | .ex d src => Sys2Proof.Machine.execEx d src s
  | .exb d src => Sys2Proof.Machine.execExb d src s
  | .push d src => Sys2Proof.Machine.execPush d src s
  | .pushl d src => Sys2Proof.Machine.execPushl d src s
  | .pop dst t => Sys2Proof.Machine.execPop dst t s
  | .popl dst t => Sys2Proof.Machine.execPopl dst t s
  | .add d src => Sys2Proof.Machine.execAdd d src s
  | .addb d src => Sys2Proof.Machine.execAddb d src s
  | .addl d src => Sys2Proof.Machine.execAddl d src s
  | .adc d t => Sys2Proof.Machine.execAdc d t s
  | .adcb d t => Sys2Proof.Machine.execAdcb d t s
  | .sub d src => Sys2Proof.Machine.execSub d src s
  | .subb d src => Sys2Proof.Machine.execSubb d src s
  | .subl d src => Sys2Proof.Machine.execSubl d src s
  | .sbc d t => Sys2Proof.Machine.execSbc d t s
  | .sbcb d t => Sys2Proof.Machine.execSbcb d t s
  | .cp d src => Sys2Proof.Machine.execCp d src s
  | .cpb d src => Sys2Proof.Machine.execCpb d src s
  | .cpl d src => Sys2Proof.Machine.execCpl d src s
  | .cpImm dst k => Sys2Proof.Machine.execCpImm dst k s
  | .cpbImm dst k => Sys2Proof.Machine.execCpbImm dst k s
  | .inc dst n => Sys2Proof.Machine.execInc dst n s
  | .incb dst n => Sys2Proof.Machine.execIncb dst n s
  | .dec dst n => Sys2Proof.Machine.execDec dst n s
  | .decb dst n => Sys2Proof.Machine.execDecb dst n s
  | .neg dst => Sys2Proof.Machine.execNeg dst s
  | .negb dst => Sys2Proof.Machine.execNegb dst s
  | .com dst => Sys2Proof.Machine.execCom dst s
  | .comb dst => Sys2Proof.Machine.execComb dst s
  | .mult d src => Sys2Proof.Machine.execMult d src s
  | .multl d src => Sys2Proof.Machine.execMultl d src s
  | .div d src => Sys2Proof.Machine.execDiv d src s
  | .divl d src => Sys2Proof.Machine.execDivl d src s
  | .extsb d => Sys2Proof.Machine.execExtsb d s
  | .exts d => Sys2Proof.Machine.execExts d s
  | .extsl d => Sys2Proof.Machine.execExtsl d s
  | .dab d => Sys2Proof.Machine.execDab d s
  | .and d src => Sys2Proof.Machine.execAnd d src s
  | .andb d src => Sys2Proof.Machine.execAndb d src s
  | .or d src => Sys2Proof.Machine.execOr d src s
  | .orb d src => Sys2Proof.Machine.execOrb d src s
  | .xor d src => Sys2Proof.Machine.execXor d src s
  | .xorb d src => Sys2Proof.Machine.execXorb d src s
  | .test dst => Sys2Proof.Machine.execTest dst s
  | .testb dst => Sys2Proof.Machine.execTestb dst s
  | .testl dst => Sys2Proof.Machine.execTestl dst s
  | .bit dst b => Sys2Proof.Machine.execBit dst b s
  | .bitb dst b => Sys2Proof.Machine.execBitb dst b s
  | .bitDyn d t => Sys2Proof.Machine.execBitDyn d t s
  | .bitbDyn d t => Sys2Proof.Machine.execBitbDyn d t s
  | .set dst b => Sys2Proof.Machine.execSet dst b s
  | .setb dst b => Sys2Proof.Machine.execSetb dst b s
  | .setDyn d t => Sys2Proof.Machine.execSetDyn d t s
  | .setbDyn d t => Sys2Proof.Machine.execSetbDyn d t s
  | .res dst b => Sys2Proof.Machine.execRes dst b s
  | .resb dst b => Sys2Proof.Machine.execResb dst b s
  | .resDyn d t => Sys2Proof.Machine.execResDyn d t s
  | .resbDyn d t => Sys2Proof.Machine.execResbDyn d t s
  | .tset dst => Sys2Proof.Machine.execTset dst s
  | .tsetb dst => Sys2Proof.Machine.execTsetb dst s
  | .tcc cc d => Sys2Proof.Machine.execTcc cc d s
  | .tccb cc d => Sys2Proof.Machine.execTccb cc d s
  | .rl d twice => Sys2Proof.Machine.execRl d twice s
  | .rlb d twice => Sys2Proof.Machine.execRlb d twice s
  | .rr d twice => Sys2Proof.Machine.execRr d twice s
  | .rrb d twice => Sys2Proof.Machine.execRrb d twice s
  | .rlc d twice => Sys2Proof.Machine.execRlc d twice s
  | .rlcb d twice => Sys2Proof.Machine.execRlcb d twice s
  | .rrc d twice => Sys2Proof.Machine.execRrc d twice s
  | .rrcb d twice => Sys2Proof.Machine.execRrcb d twice s
  | .slaSra d count => Sys2Proof.Machine.execSlaSra d count s
  | .slabSrab d count => Sys2Proof.Machine.execSlabSrab d count s
  | .slalSral d count => Sys2Proof.Machine.execSlalSral d count s
  | .sllSrl d count => Sys2Proof.Machine.execSllSrl d count s
  | .sllbSrlb d count => Sys2Proof.Machine.execSllbSrlb d count s
  | .slllSrll d count => Sys2Proof.Machine.execSlllSrll d count s
  | .sda d t => Sys2Proof.Machine.execSda d t s
  | .sdab d t => Sys2Proof.Machine.execSdab d t s
  | .sdal d t => Sys2Proof.Machine.execSdal d t s
  | .sdl d t => Sys2Proof.Machine.execSdl d t s
  | .sdlb d t => Sys2Proof.Machine.execSdlb d t s
  | .sdll d t => Sys2Proof.Machine.execSdll d t s
  | .rldb l t => Sys2Proof.Machine.execRldb l t s
  | .rrdb l t => Sys2Proof.Machine.execRrdb l t s
  | .jp cc dst => Sys2Proof.Machine.execJp cc dst s
  | .jr cc disp => Sys2Proof.Machine.execJr cc disp s
  | .call dst => Sys2Proof.Machine.execCall dst s
  | .calr disp => Sys2Proof.Machine.execCalr disp s
  | .ret cc => Sys2Proof.Machine.execRet cc s
  | .djnz r disp => Sys2Proof.Machine.execDjnz r disp s
  | .dbjnz r disp => Sys2Proof.Machine.execDbjnz r disp s
  | .nop => Sys2Proof.Machine.execNop s
  | .halt => Sys2Proof.Machine.execHalt s
  | .di v n => Sys2Proof.Machine.execDi v n s
  | .ei v n => Sys2Proof.Machine.execEi v n s
  | .ldps src => Sys2Proof.Machine.execLdps src s
  | .sc code => Sys2Proof.Machine.execSc code s
  | .iret => Sys2Proof.Machine.execIret s
  | .setflg mask => Sys2Proof.Machine.execSetflg mask s
  | .resflg mask => Sys2Proof.Machine.execResflg mask s
  | .comflg mask => Sys2Proof.Machine.execComflg mask s
  | .ldctlRead d k => Sys2Proof.Machine.execLdctlRead d k s
  | .ldctlWrite k t => Sys2Proof.Machine.execLdctlWrite k t s
  | .ldctlbRead d => Sys2Proof.Machine.execLdctlbRead d s
  | .ldctlbWrite t => Sys2Proof.Machine.execLdctlbWrite t s
  | .mset => Sys2Proof.Machine.execMset s
  | .mres => Sys2Proof.Machine.execMres s
  | .mbit => Sys2Proof.Machine.execMbit s
  | .mreq d => Sys2Proof.Machine.execMreq d s
  | .epu page op => Sys2Proof.Machine.execEpu page op s
  | .inInd d t => Sys2Proof.Machine.execInInd d t s
  | .inDir d port => Sys2Proof.Machine.execInDir d port s
  | .inbInd d t => Sys2Proof.Machine.execInbInd d t s
  | .inbDir d port => Sys2Proof.Machine.execInbDir d port s
  | .outInd d t => Sys2Proof.Machine.execOutInd d t s
  | .outDir port t => Sys2Proof.Machine.execOutDir port t s
  | .outbInd d t => Sys2Proof.Machine.execOutbInd d t s
  | .outbDir port t => Sys2Proof.Machine.execOutbDir port t s
  | .sin d port => Sys2Proof.Machine.execSin d port s
  | .sinb d port => Sys2Proof.Machine.execSinb d port s
  | .sout port t => Sys2Proof.Machine.execSout port t s
  | .soutb port t => Sys2Proof.Machine.execSoutb port t s
  | .ldi d t r => Sys2Proof.Machine.execLdi d t r s
  | .ldir d t r => Sys2Proof.Machine.execLdir d t r s
  | .ldd d t r => Sys2Proof.Machine.execLdd d t r s
  | .lddr d t r => Sys2Proof.Machine.execLddr d t r s
  | .ldib d t r => Sys2Proof.Machine.execLdib d t r s
  | .ldirb d t r => Sys2Proof.Machine.execLdirb d t r s
  | .lddb d t r => Sys2Proof.Machine.execLddb d t r s
  | .lddrb d t r => Sys2Proof.Machine.execLddrb d t r s
  | .cpi d t r cc => Sys2Proof.Machine.execCpi d t r cc s
  | .cpir d t r cc => Sys2Proof.Machine.execCpir d t r cc s
  | .cpd d t r cc => Sys2Proof.Machine.execCpd d t r cc s
  | .cpdr d t r cc => Sys2Proof.Machine.execCpdr d t r cc s
  | .cpib d t r cc => Sys2Proof.Machine.execCpib d t r cc s
  | .cpirb d t r cc => Sys2Proof.Machine.execCpirb d t r cc s
  | .cpdb d t r cc => Sys2Proof.Machine.execCpdb d t r cc s
  | .cpdrb d t r cc => Sys2Proof.Machine.execCpdrb d t r cc s
  | .cpsi d t r cc => Sys2Proof.Machine.execCpsi d t r cc s
  | .cpsir d t r cc => Sys2Proof.Machine.execCpsir d t r cc s
  | .cpsd d t r cc => Sys2Proof.Machine.execCpsd d t r cc s
  | .cpsdr d t r cc => Sys2Proof.Machine.execCpsdr d t r cc s
  | .cpsib d t r cc => Sys2Proof.Machine.execCpsib d t r cc s
  | .cpsirb d t r cc => Sys2Proof.Machine.execCpsirb d t r cc s
  | .cpsdb d t r cc => Sys2Proof.Machine.execCpsdb d t r cc s
  | .cpsdrb d t r cc => Sys2Proof.Machine.execCpsdrb d t r cc s
  | .trib d t r => Sys2Proof.Machine.execTrib d t r s
  | .trirb d t r => Sys2Proof.Machine.execTrirb d t r s
  | .trdb d t r => Sys2Proof.Machine.execTrdb d t r s
  | .trdrb d t r => Sys2Proof.Machine.execTrdrb d t r s
  | .trtib s1 s2 r => Sys2Proof.Machine.execTrtib s1 s2 r s
  | .trtirb s1 s2 r => Sys2Proof.Machine.execTrtirb s1 s2 r s
  | .trtdb s1 s2 r => Sys2Proof.Machine.execTrtdb s1 s2 r s
  | .trtdrb s1 s2 r => Sys2Proof.Machine.execTrtdrb s1 s2 r s
  | .ini d t r => Sys2Proof.Machine.execIni d t r s
  | .inir d t r => Sys2Proof.Machine.execInir d t r s
  | .ind d t r => Sys2Proof.Machine.execInd d t r s
  | .indr d t r => Sys2Proof.Machine.execIndr d t r s
  | .inib d t r => Sys2Proof.Machine.execInib d t r s
  | .inirb d t r => Sys2Proof.Machine.execInirb d t r s
  | .indb d t r => Sys2Proof.Machine.execIndb d t r s
  | .indrb d t r => Sys2Proof.Machine.execIndrb d t r s
  | .sini d t r => Sys2Proof.Machine.execSini d t r s
  | .sinir d t r => Sys2Proof.Machine.execSinir d t r s
  | .sind d t r => Sys2Proof.Machine.execSind d t r s
  | .sindr d t r => Sys2Proof.Machine.execSindr d t r s
  | .sinib d t r => Sys2Proof.Machine.execSinib d t r s
  | .sinirb d t r => Sys2Proof.Machine.execSinirb d t r s
  | .sindb d t r => Sys2Proof.Machine.execSindb d t r s
  | .sindrb d t r => Sys2Proof.Machine.execSindrb d t r s
  | .outi d t r => Sys2Proof.Machine.execOuti d t r s
  | .otir d t r => Sys2Proof.Machine.execOtir d t r s
  | .outd d t r => Sys2Proof.Machine.execOutd d t r s
  | .otdr d t r => Sys2Proof.Machine.execOtdr d t r s
  | .outib d t r => Sys2Proof.Machine.execOutib d t r s
  | .otirb d t r => Sys2Proof.Machine.execOtirb d t r s
  | .outdb d t r => Sys2Proof.Machine.execOutdb d t r s
  | .otdrb d t r => Sys2Proof.Machine.execOtdrb d t r s
  | .souti d t r => Sys2Proof.Machine.execSouti d t r s
  | .sotir d t r => Sys2Proof.Machine.execSotir d t r s
  | .soutd d t r => Sys2Proof.Machine.execSoutd d t r s
  | .sotdr d t r => Sys2Proof.Machine.execSotdr d t r s
  | .soutib d t r => Sys2Proof.Machine.execSoutib d t r s
  | .sotirb d t r => Sys2Proof.Machine.execSotirb d t r s
  | .soutdb d t r => Sys2Proof.Machine.execSoutdb d t r s
  | .sotdrb d t r => Sys2Proof.Machine.execSotdrb d t r s

end Sys2Proof.Machine
end

