-- ==== Sys2Proof/Machine/Cycle.lean ====
section
/-! DEFINITION. Machine/Cycle.lean: what one `execute_instruction()` step does around `exec`: interrupt acceptance, the
Halted state, fetch and decode, the rewind of block instructions, the cycle counter
(`60_exceptions.md` R611, R630; `47_block.md` R500, R501; `70_reset_and_hazards.md` R720, R721). -/
namespace Sys2Proof.Machine

/-- The interrupt acceptable at a boundary, by priority (R611). -/
def State.acceptable (s : State) : Option Trap :=
  if s.nmiPending then some .nmi
  else if s.viReq && s.vie then some .vi
  else if s.nviReq && s.nvie then some .nvi
  else none

/-- Apply a function to a next state. -/
def mapNext (f : State → State) : Result → Result
  | .next s => .next (f s)
  | .fault r => .fault r
  | .refused r => .refused r

/-- The three words at the PC, enough for every instruction (`20_memory.md` R86; log 21). -/
def State.fetchWords (s : State) : List Word :=
  [s.readWord .prog s.pc, s.readWord .prog (s.pc + 2), s.readWord .prog (s.pc + 4)]

/-- Whether a word is RESET under `P_RESET_OPCODE` (`45_system.md` R450, log 11). -/
def isResetWord (c : Config) (w : Word) : Bool :=
  match c.resetOpcode with
  | none => false
  | some (mask, value) => w &&& mask == value

/-- RESET: the privilege check, then the reset sequence (R450). -/
def execReset (s : State) : Result := s.privileged (.next s.resetSequence)

/-- The PC after an instruction of `words` words (`10_state.md` R40). -/
def State.advance (s : State) (words : Nat) : State := s.setPc (s.pc + 2 * BitVec.ofNat 16 words)

/-- The end of a block iteration that goes on: back to the instruction's own address `ia` (R501). -/
def State.rewind (s : State) (ia : Word) : State :=
  if s.reexec then { s with pc := ia, reexec := false } else s

/-- Decode and run one instruction or one iteration; an unassigned word traps with the PC after it (R127, R621). -/
def runInstr (s : State) : Result :=
  if isResetWord s.cfg (s.readWord .prog s.pc) then execReset (s.advance 1)
  else
    match decode (bytesOf s.fetchWords) with
    | .ok i _ => mapNext (fun t => t.rewind s.pc) (exec i (s.advance i.words))
    | .rejected _ => .next ((s.advance 1).takeTrap .ext)

/-- The cycles the step with this state's index returns: at least 1 (R720, log 7). -/
def State.stepCycles (s : State) : Nat := Config.freeCycles s.draws + 1

/-- The bus accesses of the instruction at the PC: its fetches, then those `Instr.bus` gives (`20_memory.md` R92, R98,
`60_exceptions.md` R621). -/
def State.instrBus (s : State) : List BusAccess :=
  if isResetWord s.cfg (s.readWord .prog s.pc) then
    s.fetchBus 1 ++ (if s.sysMode then resetBus s.cfg else s.trapBus .priv)
  else
    match decode (bytesOf s.fetchWords) with
    | .ok i _ => s.fetchBus i.words ++ Instr.bus (s.advance i.words) i
    | .rejected _ => s.fetchBus 1 ++ s.trapBus .ext

/-- The bus accesses of a step, in order: those of an interrupt entry, none while halted, or those of an instruction. -/
def State.stepBus (s : State) : List BusAccess :=
  match s.acceptable with
  | some t => s.trapBus t
  | none => if s.halt then [] else s.instrBus

/-- The end of a step: count its cycles, note its bus accesses, and move to the next index of the free values
(`20_memory.md` R100, log 6, log 7). -/
def State.tick (s : State) (acc : List BusAccess) : State :=
  { s with cycles := s.cycles + BitVec.ofNat 64 s.stepCycles, bus := s.bus ++ acc, draws := s.draws + 1 }

/-- One step: an interrupt entry, or an idle step while halted, or one instruction (R611, R630, R721). -/
def stepOnce (s : State) : Result :=
  match s.acceptable with
  | some t => .next ((s.takeTrap t).tick s.stepBus)
  | none => if s.halt then .next (s.tick s.stepBus) else mapNext (fun t => t.tick s.stepBus) (runInstr s)

/-- Store words from an address of PROG on. -/
def State.placeWords (s : State) (a : Word) : List Word → State
  | [] => s
  | w :: ws => (s.writeWord .prog a w).placeWords (a + 2) ws

end Sys2Proof.Machine
end

