-- ==== Sys2Proof/Machine/Step.lean ====
section
/-! DEFINITION. Machine/Step.lean: the step, and how the host places an instruction. -/
namespace Sys2Proof.Machine

/-- One `execute_instruction()` (`00_scope.md` R8, `70_reset_and_hazards.md` R721). -/
def step (s : State) : Host.Outcome State Fault Refusal := stepOnce s

/-- The instruction whose bits are `w` (of which `nbits` are given) in PROG at the PC, where the next step fetches
(log 20). -/
def State.withFetchWord (s : State) (nbits w : Nat) : State :=
  s.placeWords s.pc [tableWord nbits w 0, tableWord nbits w 1, tableWord nbits w 2]

end Sys2Proof.Machine
end

