-- ==== Sys2Proof/Machine/HostCalls.lean ====
section
/-! DEFINITION. Machine/HostCalls.lean: what the embedder does between steps (`00_scope.md` R8, `60_exceptions.md`
R610, `70_reset_and_hazards.md` R700 to R702, R715, R721). -/
namespace Sys2Proof.Machine

/-- The interrupt lines (R610). -/
inductive Line where
  | nmi | nvi | vi
  deriving DecidableEq, Repr

/-- `set_input_line(line, state)`, `assert` for ASSERT (R610). -/
def State.setInputLine (s : State) (line : Line) (assert : Bool) : State :=
  match line with
  | .nmi => { s with nmiPending := s.nmiPending || (assert && !s.nmiLine), nmiLine := assert }
  | .nvi => { s with nviReq := assert }
  | .vi => { s with viReq := assert }

/-- `set_irq_vector(v)` (R610). -/
def State.setIrqVector (s : State) (v : Byte) : State := { s with viVector := v }

/-- `stop()` (R721). -/
def State.requestStop (s : State) : State := { s with stop := true }

/-- `reset()` (R700), with the two bus reads it makes. -/
def State.hostReset (s : State) : State := { s.resetSequence with bus := s.bus ++ resetBus s.cfg }

/-- A new core with its parameters and the memories the host has filled: the creation values, then `reset()` (R701). -/
def State.create (c : Config) (prog data : Memory) : State :=
  ({ State.reset with cfg := c, prog := prog, data := data, bus := [] } : State).hostReset

/-- The host changes a byte of memory between steps (R715, `20_memory.md` R96). -/
def State.hostWrite (s : State) (sp : Space) (a : Word) (v : Byte) : State := s.writeByte sp a v

/-- The loop of `run(budget)` with a bound on its passes (R721): the cycles used and the state on return. -/
def runLoop (budget : Nat) : (fuel : Nat) → (used : Nat) → State → Host.Outcome (Nat × State) Fault Refusal
  | 0, used, s => .next (used, s)
  | fuel + 1, used, s =>
    if s.stop then .next (used, { s with stop := false })
    else if budget ≤ used then .next (used, s)
    else if s.halt && s.acceptable.isNone then .next (used, s)
    else
      match step s with
      | .next t => runLoop budget fuel (used + s.stepCycles) t
      | .fault r => .fault r
      | .refused r => .refused r

/-- `run(budget)` (R721). Every step uses at least one cycle, so `budget + 1` passes reach a return (log 22). -/
def State.run (s : State) (budget : Nat) : Host.Outcome (Nat × State) Fault Refusal :=
  runLoop budget (budget + 1) 0 s

end Sys2Proof.Machine
end

