-- ==== Sys2Proof/Safety.lean ====
section
/-! DEFINITION. Safety.lean: the terms the claims use: the invariant every step keeps, the frame of an instruction
(what it leaves unchanged), the state a trap or interrupt entry leaves, and the results the arithmetic rules name,
written as the rules write them and not through the functions of `Machine/`. -/
namespace Sys2Proof.Machine

/-! ## The invariant -/

/-- What every reachable state meets: both memories are in canonical form, no block iteration is left half done at a
boundary (`47_block.md` R501), and PSAP holds only bits `P_PSAP_MASK` lets it store (`10_state.md` R47). -/
def State.Inv (s : State) : Prop :=
  s.prog.wf = true ∧ s.data.wf = true ∧ s.reexec = false ∧ maskPsap s.cfg.psapMask s.psap = s.psap

/-! ## Frames -/

/-- The stack pointer that R15 does not denote in the current mode (`10_state.md` R37). -/
def State.otherSp (s : State) : Word := if s.sysMode then s.nsp else s.ssp

/-- Byte `a` of space `sp'` is one of the bytes `stored` of space `sp`: the spaces are the same, or DATA is PROG
(`20_memory.md` R80). -/
def Covered (c : Config) (sp : Space) (stored : List Word) (sp' : Space) (a : Word) : Prop :=
  (sp' = sp ∨ c.separateData = false) ∧ a ∈ stored

/-- The word registers that a register of a width covers (`10_state.md` R33, R34). -/
def destRegs : Size → Reg → List Reg
  | .b, n => [byteHome n]
  | .w, n => [n]
  | .l, n => [n, n + 1]

/-- The word registers that an operand covers, none for memory. -/
def RegMem.regs (z : Size) : RegMem → List Reg
  | .reg n => destRegs z n
  | .mem _ => []

/-- What an operand holds in `t`, its address computed in `s` (`30_encoding.md` R115). -/
def RegMem.after (s t : State) (z : Size) : RegMem → z.Val
  | .reg n => t.reg z n
  | .mem m => t.memRead .data z (MemOp.ea s m)

/-- The special registers, the lines and latches, and the model's own fields are the same in both states. -/
structure State.SameRest (s t : State) : Prop where
  psap : t.psap = s.psap
  refresh : t.refresh = s.refresh
  nviReq : t.nviReq = s.nviReq
  viReq : t.viReq = s.viReq
  viVector : t.viVector = s.viVector
  nmiLine : t.nmiLine = s.nmiLine
  nmiPending : t.nmiPending = s.nmiPending
  halt : t.halt = s.halt
  mi : t.mi = s.mi
  cycles : t.cycles = s.cycles
  stop : t.stop = s.stop
  bus : t.bus = s.bus
  draws : t.draws = s.draws
  cfg : t.cfg = s.cfg

/-- The frame of an instruction from `s` to `t`: every word register outside `rs`, the other mode's stack pointer,
every FCW bit outside `fs`, every byte of memory outside `stored` in `sp`, and `SameRest`. -/
structure State.FrameCore (s t : State) (rs : List Reg) (fs : List Nat) (sp : Space) (stored : List Word) : Prop where
  regs : ∀ n, n ∉ rs → t.rw n = s.rw n
  otherSp : t.otherSp = s.otherSp
  fcw : ∀ i, i ∉ fs → t.fcw.getLsbD i = s.fcw.getLsbD i
  mem : ∀ sp' a, ¬ Covered s.cfg sp stored sp' a → t.readByte sp' a = s.readByte sp' a
  rest : s.SameRest t

/-- The frame of an instruction that is no I/O and no block instruction: also no port access, `reexec` unchanged. -/
structure State.Frame (s t : State) (rs : List Reg) (fs : List Nat) (sp : Space) (stored : List Word) : Prop
    extends State.FrameCore s t rs fs sp stored where
  io : t.io = s.io
  reexec : t.reexec = s.reexec

/-- The frame of an instruction that also leaves the PC at the instruction that follows (`10_state.md` R40): `exec`
runs with the PC already there. -/
structure State.Straight (s t : State) (rs : List Reg) (fs : List Nat) (sp : Space) (stored : List Word) : Prop
    extends State.Frame s t rs fs sp stored where
  pc : t.pc = s.pc

/-- The bits of the flags C, Z, S, V, D, H in the FCW (`10_state.md` R42). -/
def bitC : Nat := 7
def bitZ : Nat := 6
def bitS : Nat := 5
def bitV : Nat := 4
def bitD : Nat := 3
def bitH : Nat := 2

/-- The flag profile of `41_arithmetic.md` R263 is `doc`. -/
def State.docFlags (s : State) : Bool := s.cfg.flags == .doc

/-! ## Results and flags of the arithmetic rules -/

/-- Result, Z, S and V of `AddFlags` (`41_arithmetic.md` R260). -/
structure IsSum {w : Nat} (a b : BitVec w) (cin : Bool) (r : BitVec w) (t : State) : Prop where
  result : r.toNat = (a.toNat + b.toNat + cin.toNat) % 2 ^ w
  z : t.flagZ = decide (r = 0)
  s : t.flagS = r.getLsbD (w - 1)
  v : t.flagV = (~~~(a ^^^ b) &&& (a ^^^ r)).getLsbD (w - 1)

/-- C of `AddFlags` (R260): unsigned overflow. -/
def sumCarry {w : Nat} (a b : BitVec w) (cin : Bool) : Bool := decide (2 ^ w ≤ a.toNat + b.toNat + cin.toNat)

/-- H of `AddFlags` (R260): the carry into bit `n`, 12 for words and 4 for bytes. -/
def sumHalf {w : Nat} (n : Nat) (a b : BitVec w) (cin : Bool) : Bool :=
  decide (2 ^ n ≤ a.toNat % 2 ^ n + b.toNat % 2 ^ n + cin.toNat)

/-- Result, Z, S and V of `SubFlags` (`41_arithmetic.md` R261). -/
structure IsDiff {w : Nat} (a b : BitVec w) (bin : Bool) (r : BitVec w) (t : State) : Prop where
  result : (r.toNat : Int) = ((a.toNat : Int) - b.toNat - bin.toNat) % 2 ^ w
  z : t.flagZ = decide (r = 0)
  s : t.flagS = r.getLsbD (w - 1)
  v : t.flagV = ((a ^^^ b) &&& (a ^^^ r)).getLsbD (w - 1)

/-- C of `SubFlags` (R261): a borrow. -/
def diffBorrow {w : Nat} (a b : BitVec w) (bin : Bool) : Bool := decide (a.toNat < b.toNat + bin.toNat)

/-- H of `SubFlags` (R261): the borrow out of the low `n` bits. -/
def diffHalf {w : Nat} (n : Nat) (a b : BitVec w) (bin : Bool) : Bool :=
  decide (a.toNat % 2 ^ n < b.toNat % 2 ^ n + bin.toNat)

/-- C, Z, S and V of a subtraction whose result is thrown away (R274). -/
def IsCompare {w : Nat} (a b : BitVec w) (t : State) : Prop :=
  (∃ r : BitVec w, IsDiff a b false r t) ∧ t.flagC = diffBorrow a b false

/-- `Parity(v)` (`41_arithmetic.md` R262): the number of one bits is even. -/
def evenOnes {w : Nat} (v : BitVec w) : Bool := ((List.range w).filter fun i => v.getLsbD i).length % 2 == 0

/-- `LogicFlags(w, r)` (`42_logical_bit.md` R320) from `s` to `t`. -/
structure LogicFlagsOf (s t : State) (z : Size) (r : z.Val) : Prop where
  zero : t.flagZ = decide (r = 0)
  sign : t.flagS = r.getLsbD (z.bits - 1)
  carry : t.flagC = if s.docFlags then false else s.flagC
  overflow : t.flagV = if z = .b then evenOnes r else if s.docFlags then false else s.flagV

/-- The flags C, Z, S, V of a product `p` of `w`-bit factors (`41_arithmetic.md` R287, R288). -/
structure ProductFlags (w : Nat) (p : Int) (t : State) : Prop where
  c : t.flagC = true ↔ p < -2 ^ (w - 1) ∨ 2 ^ (w - 1) ≤ p
  z : t.flagZ = true ↔ p = 0
  s : t.flagS = true ↔ p < 0
  v : t.flagV = false

/-- A quotient `q` and remainder `m` of `n` by `d` as `41_arithmetic.md` R289 computes them: truncated toward zero,
the remainder with the sign of `n`, and q·d + m = n. -/
structure IsQuotient (n d q m : Int) : Prop where
  exact : n = q * d + m
  small : m.natAbs < d.natAbs
  sign : m = 0 ∨ (m < 0 ↔ n < 0)

/-- Z and S from a result. -/
def ZeroSign {w : Nat} (r : BitVec w) (t : State) : Prop :=
  t.flagZ = decide (r = 0) ∧ t.flagS = r.getLsbD (w - 1)

/-- The result and flags of a rotate of `x` by `n` bits, `turn k` being `x` after `k` bits and `carry` the last bit moved
(`43_shift_rotate.md` R394): V says that the sign bit left its first value on the way. -/
structure Rotated {w : Nat} (x : BitVec w) (n : Nat) (turn : Nat → BitVec w) (carry : Bool) (r : BitVec w) (t : State) :
    Prop where
  result : r = turn n
  c : t.flagC = carry
  zs : ZeroSign r t
  v : t.flagV = true ↔ ∃ k, 1 ≤ k ∧ k ≤ n ∧ (turn k).msb ≠ x.msb

/-- How many bits a rotate moves: 2 when the field S is 1 (`30_encoding.md` R123). -/
def rotCount (twice : Bool) : Nat := if twice then 2 else 1

/-- Carry and value as one vector of `w + 1` bits, the carry on top (`43_shift_rotate.md` R394). -/
def withCarry {w : Nat} (c : Bool) (x : BitVec w) : BitVec (w + 1) := BitVec.cons c x

/-- The value of a rotate through the carry by `k` bits to the left, and to the right. -/
def turnLeftCarry {w : Nat} (c : Bool) (x : BitVec w) (k : Nat) : BitVec w :=
  ((withCarry c x).rotateLeft k).setWidth w
def turnRightCarry {w : Nat} (c : Bool) (x : BitVec w) (k : Nat) : BitVec w :=
  ((withCarry c x).rotateRight k).setWidth w

/-- A shift of `x` by the count `b`, −w ≤ b ≤ w (`43_shift_rotate.md` R370, R371), V apart. A right shift divides,
rounding down: the signed value when `arith`, the unsigned value otherwise. -/
structure Shifted {w : Nat} (arith : Bool) (x : BitVec w) (b : Int) (r : BitVec w) (t : State) : Prop where
  left : 0 < b → r.toNat = x.toNat * 2 ^ b.toNat % 2 ^ w ∧ t.flagC = x.getLsbD (w - b.toNat)
  rightArith : b < 0 → arith = true → r.toInt = x.toInt / 2 ^ (-b).toNat ∧ t.flagC = x.getLsbD ((-b).toNat - 1)
  rightLogic : b < 0 → arith = false → r.toNat = x.toNat / 2 ^ (-b).toNat ∧ t.flagC = x.getLsbD ((-b).toNat - 1)
  zero : b = 0 → r = x ∧ t.flagC = false
  zs : ZeroSign r t

/-- V of an arithmetic shift (R371): the sign bit took another value on the way; never in a right shift. -/
def signLeft {w : Nat} (x : BitVec w) (b : Int) : Prop :=
  ∃ k : Nat, 1 ≤ k ∧ (k : Int) ≤ b ∧ (x <<< k).getLsbD (w - 1) ≠ x.getLsbD (w - 1)

/-! ## Trap and interrupt entry -/

/-- The bytes of a frame pushed below `ssp`: two words, or three with an identifier (`60_exceptions.md` R620). -/
def frameBytes (c : Config) (ssp : Word) (id : Option Word) : List Word :=
  accessBytes c .w (ssp - 2) ++ accessBytes c .w (ssp - 4) ++ (if id.isSome then accessBytes c .w (ssp - 6) else [])

/-- The words of a frame at the new SSP (`60_exceptions.md` R623). -/
def State.FrameAt (t : State) (pc fcw : Word) : Option Word → Prop
  | none => t.readWord .prog t.ssp = pc ∧ t.readWord .prog (t.ssp + 2) = fcw
  | some id =>
    t.readWord .prog t.ssp = id ∧ t.readWord .prog (t.ssp + 2) = pc ∧ t.readWord .prog (t.ssp + 4) = fcw

/-- The interrupt latches are the same in both states (`60_exceptions.md` R625). -/
structure State.SameLatches (s t : State) : Prop where
  nviReq : t.nviReq = s.nviReq
  viReq : t.viReq = s.viReq
  nmiPending : t.nmiPending = s.nmiPending

/-- `t` is the state a trap or interrupt entry leaves from `s`, with the vector words at `fcwAt` and `pcAt` and the
identifier `id` (`60_exceptions.md` R620 to R623); the latches are said apart. The vector is read after the pushes. -/
structure State.Entered (s t : State) (fcwAt pcAt : Word) (id : Option Word) : Prop where
  fcw : t.fcw = t.readWord .prog fcwAt
  pc : t.pc = t.readWord .prog pcAt
  ssp : t.ssp = s.ssp - (if id.isSome then 6 else 4)
  frame : t.FrameAt s.pc s.fcw id
  mem : ∀ sp a, ¬ Covered s.cfg .prog (frameBytes s.cfg s.ssp id) sp a → t.readByte sp a = s.readByte sp a
  halt : t.halt = false
  regs : t.regs = s.regs
  nsp : t.nsp = s.nsp
  psap : t.psap = s.psap
  refresh : t.refresh = s.refresh
  viVector : t.viVector = s.viVector
  nmiLine : t.nmiLine = s.nmiLine
  mi : t.mi = s.mi
  cycles : t.cycles = s.cycles
  reexec : t.reexec = s.reexec
  stop : t.stop = s.stop
  io : t.io = s.io
  bus : t.bus = s.bus
  draws : t.draws = s.draws
  cfg : t.cfg = s.cfg

/-- `exec i s` takes the extended-instruction trap (`60_exceptions.md` R601, T = 1). -/
def TakesExtendedTrap (i : Instr) (s : State) : Prop :=
  ∃ t, exec i s = .next t ∧ s.Entered t (s.psap + 0x06) (s.psap + 0x08) none ∧ s.SameLatches t

/-- `exec i s` takes the privileged-instruction trap (`60_exceptions.md` R601, T = 2). -/
def TakesPrivilegedTrap (i : Instr) (s : State) : Prop :=
  ∃ t, exec i s = .next t ∧ s.Entered t (s.psap + 0x0A) (s.psap + 0x0C) none ∧ s.SameLatches t

/-- The four multi-micro instructions (`45_system.md` R455 to R458). -/
def Instr.isMultiMicro : Instr → Bool
  | .mset | .mres | .mbit | .mreq _ => true
  | _ => false

/-! ## Bus accesses (`20_memory.md` R100) -/

/-- Byte `a` of space `sp'` is one that an access writes (`20_memory.md` R80 to R82). -/
def BusAccess.Stores (c : Config) (x : BusAccess) (sp' : Space) (a : Word) : Prop :=
  x.write = true ∧ ∃ sp, x.space = .mem sp ∧
    Covered c sp (if x.size = .b then [x.addr] else [x.addr, x.addr + 1]) sp' a

/-- The access is to a port. -/
def BusAccess.isPort (x : BusAccess) : Bool :=
  match x.space with
  | .mem _ => false
  | .port _ => true

/-- The bus access of an entry of the port record. -/
def IoAccess.onBus (x : IoAccess) : BusAccess :=
  { kind := .data, space := .port x.space, write := x.write, size := x.size, addr := x.port }

/-- From `s` to `t` the machine made the accesses `acc`: they are added to `bus`, no byte of memory changes that none of
them writes, and the port record grows by those of them that are to ports. -/
structure State.Recorded (s t : State) (acc : List BusAccess) : Prop where
  bus : t.bus = s.bus ++ acc
  mem : ∀ sp a, (∀ x ∈ acc, ¬ x.Stores s.cfg sp a) → t.readByte sp a = s.readByte sp a
  ports : t.io.map IoAccess.onBus = s.io.map IoAccess.onBus ++ acc.filter BusAccess.isPort

/-- The two reads of the reset vector (`70_reset_and_hazards.md` R700). -/
def resetReads : List BusAccess :=
  [{ kind := .data, space := .mem .prog, write := false, size := .w, addr := 0x0002 },
    { kind := .data, space := .mem .prog, write := false, size := .w, addr := 0x0004 }]

/-- The fetch of a word (`20_memory.md` R86). -/
def fetchWord (c : Config) (a : Word) : BusAccess :=
  { kind := .fetch, space := .mem .prog, write := false, size := .w, addr := wordAddr c a }

/-- The read of a word of a vector (`20_memory.md` R88). -/
def vectorWord (c : Config) (a : Word) : BusAccess :=
  { kind := .data, space := .mem .prog, write := false, size := .w, addr := wordAddr c a }

/-- A word access to the stack side in PROG (`20_memory.md` R88). -/
def stackWord (c : Config) (write : Bool) (a : Word) : BusAccess :=
  { kind := .stack, space := .mem .prog, write := write, size := .w, addr := wordAddr c a }

/-- The accesses of a data operand: a byte, a word, or two words with the high one first (`20_memory.md` R81 to R83, R88). -/
def dataUnits (c : Config) (write : Bool) : Size → Word → List BusAccess
  | .b, a => [{ kind := .data, space := .mem .data, write := write, size := .b, addr := a }]
  | .w, a => [{ kind := .data, space := .mem .data, write := write, size := .w, addr := wordAddr c a }]
  | .l, a => [{ kind := .data, space := .mem .data, write := write, size := .w, addr := wordAddr c a },
      { kind := .data, space := .mem .data, write := write, size := .w, addr := wordAddr c (a + 2) }]

/-- The access of a port (`20_memory.md` R85). -/
def portUnit (ios : IoSpace) (write : Bool) (z : Size) (p : Word) : List BusAccess :=
  [{ kind := .data, space := .port ios, write := write, size := z, addr := p }]

/-- The accesses of a source operand that is read. -/
def Src.units {z : Size} (s : State) : Src z → List BusAccess
  | .mem m => dataUnits s.cfg false z (MemOp.ea s m)
  | .reg _ | .imm _ => []

/-- The accesses of a register or memory operand that is read, or written. -/
def RegMem.units (s : State) (write : Bool) (z : Size) : RegMem → List BusAccess
  | .mem m => dataUnits s.cfg write z (MemOp.ea s m)
  | .reg _ => []

/-- After its fetches each of the instructions makes the accesses `acc` and no others, where it is well-formed and the
mode allows it. -/
def State.Makes (s : State) (acc : List BusAccess) (l : List Instr) : Prop :=
  ∀ i ∈ l, i.wf = true → (Instr.isPrivileged i = true → s.sysMode = true) → Instr.bus s i = acc

/-- Loads, stores, and the instructions with a source or a register or memory operand (`40_data_movement.md` to
`42_logical_bit.md`). -/
def State.OperandAccesses (s : State) : Prop :=
  (∀ d (src : Src .w), s.Makes (Src.units s src)
    [.ld d (.src src), .add d src, .sub d src, .cp d src, .and d src, .or d src, .xor d src, .mult d src]) ∧
  (∀ d (src : Src .b), s.Makes (Src.units s src)
    [.ldb d (.src src), .addb d src, .subb d src, .cpb d src, .andb d src, .orb d src, .xorb d src]) ∧
  (∀ d (src : Src .l), s.Makes (Src.units s src)
    [.ldl d (.src src), .addl d src, .subl d src, .cpl d src, .multl d src]) ∧
  (∀ d o, s.Makes (dataUnits s.cfg false .w (Based.ea s o)) [.ld d (.based o)]) ∧
  (∀ d o, s.Makes (dataUnits s.cfg false .b (Based.ea s o)) [.ldb d (.based o)]) ∧
  (∀ d o, s.Makes (dataUnits s.cfg false .l (Based.ea s o)) [.ldl d (.based o)]) ∧
  (∀ dst r, s.Makes (dataUnits s.cfg true .w (StDst.ea s dst)) [.ldSt dst r]) ∧
  (∀ dst r, s.Makes (dataUnits s.cfg true .b (StDst.ea s dst)) [.ldbSt dst r]) ∧
  (∀ dst r, s.Makes (dataUnits s.cfg true .l (StDst.ea s dst)) [.ldlSt dst r]) ∧
  (∀ m k, s.Makes (dataUnits s.cfg true .w (MemOp.ea s m)) [.ldImm m k]) ∧
  (∀ m k, s.Makes (dataUnits s.cfg false .w (MemOp.ea s m)) [.cpImm m k]) ∧
  (∀ m k, s.Makes (dataUnits s.cfg true .b (MemOp.ea s m)) [.ldbImm m k]) ∧
  (∀ m k, s.Makes (dataUnits s.cfg false .b (MemOp.ea s m)) [.cpbImm m k]) ∧
  (∀ r disp, s.Makes (dataUnits s.cfg false .w (s.pc + disp)) [.ldr r disp]) ∧
  (∀ r disp, s.Makes (dataUnits s.cfg true .w (s.pc + disp)) [.ldrSt disp r]) ∧
  (∀ r disp, s.Makes (dataUnits s.cfg false .b (s.pc + disp)) [.ldrb r disp]) ∧
  (∀ r disp, s.Makes (dataUnits s.cfg true .b (s.pc + disp)) [.ldrbSt disp r]) ∧
  (∀ r disp, s.Makes (dataUnits s.cfg false .l (s.pc + disp)) [.ldrl r disp]) ∧
  (∀ r disp, s.Makes (dataUnits s.cfg true .l (s.pc + disp)) [.ldrlSt disp r]) ∧
  (∀ r m n, s.Makes ((List.range (n.toNat + 1)).flatMap fun k =>
      dataUnits s.cfg false .w (MemOp.ea s m + BitVec.ofNat 16 (2 * k)))
    [.ldm r m n]) ∧
  (∀ r m n, s.Makes ((List.range (n.toNat + 1)).flatMap fun k =>
      dataUnits s.cfg true .w (MemOp.ea s m + BitVec.ofNat 16 (2 * k)))
    [.ldmSt m r n]) ∧
  (∀ m, s.Makes (RegMem.units s true .w m) [.clr m]) ∧
  (∀ m n, s.Makes (RegMem.units s false .w m) [.test m, .bit m n]) ∧
  (∀ r m n, s.Makes (RegMem.units s false .w m ++ RegMem.units s true .w m)
    [.ex r m, .inc m n, .dec m n, .set m n, .res m n, .neg m, .com m, .tset m]) ∧
  (∀ m, s.Makes (RegMem.units s true .b m) [.clrb m]) ∧
  (∀ m n, s.Makes (RegMem.units s false .b m) [.testb m, .bitb m n]) ∧
  (∀ r m n, s.Makes (RegMem.units s false .b m ++ RegMem.units s true .b m)
    [.exb r m, .incb m n, .decb m n, .setb m n, .resb m n, .negb m, .comb m, .tsetb m]) ∧
  (∀ m, s.Makes (RegMem.units s false .l m) [.testl m])

/-- The stack side, LDPS and SC (`20_memory.md` R87, R88). -/
def State.StackAccesses (s : State) : Prop :=
  (∀ r src, s.Makes (Src.units s src ++ [stackWord s.cfg true (s.rw r - 2)]) [.push r src]) ∧
  (∀ r m, s.Makes (RegMem.units s false .l m ++
      [stackWord s.cfg true (s.rw r - 4), stackWord s.cfg true (s.rw r - 4 + 2)])
    [.pushl r m]) ∧
  (∀ r m, s.Makes (stackWord s.cfg false (s.rw r) :: RegMem.units (s.setRw r (s.rw r + 2)) true .w m) [.pop m r]) ∧
  (∀ r m, s.Makes (stackWord s.cfg false (s.rw r) :: stackWord s.cfg false (s.rw r + 2) ::
      RegMem.units (s.setRw r (s.rw r + 4)) true .l m)
    [.popl m r]) ∧
  (∀ m d, s.Makes [stackWord s.cfg true (s.rw 15 - 2)] [.call m, .calr d]) ∧
  (∀ cc, s.Makes (if s.holds cc then [stackWord s.cfg false (s.rw 15)] else []) [.ret cc]) ∧
  (s.Makes [stackWord s.cfg false (s.rw 15), stackWord s.cfg false (s.rw 15 + 2)] [.iret]) ∧
  (∀ m, s.Makes (dataUnits s.cfg false .w (MemOp.ea s m) ++ dataUnits s.cfg false .w (MemOp.ea s m + 2)) [.ldps m]) ∧
  (∀ code, s.Makes (s.trapBus (.sysCall code)) [.sc code])

/-- Input and output (`46_io.md`). -/
def State.PortAccesses (s : State) : Prop :=
  (∀ d r, s.Makes (portUnit .std false .w (s.rw r)) [.inInd d r]) ∧
  (∀ d p, s.Makes (portUnit .std false .w p) [.inDir d p]) ∧
  (∀ d r, s.Makes (portUnit .std true .w (s.rw d)) [.outInd d r]) ∧
  (∀ r p, s.Makes (portUnit .std true .w p) [.outDir p r]) ∧
  (∀ d p, s.Makes (portUnit .special false .w p) [.sin d p]) ∧
  (∀ r p, s.Makes (portUnit .special true .w p) [.sout p r]) ∧
  (∀ d r, s.Makes (portUnit .std false .b (s.rw r)) [.inbInd d r]) ∧
  (∀ d p, s.Makes (portUnit .std false .b p) [.inbDir d p]) ∧
  (∀ d r, s.Makes (portUnit .std true .b (s.rw d)) [.outbInd d r]) ∧
  (∀ r p, s.Makes (portUnit .std true .b p) [.outbDir p r]) ∧
  (∀ d p, s.Makes (portUnit .special false .b p) [.sinb d p]) ∧
  (∀ r p, s.Makes (portUnit .special true .b p) [.soutb p r])

/-- One iteration of each block instruction (`47_block.md`, `48_block_io.md`). -/
def State.BlockAccesses (s : State) : Prop :=
  (∀ d src r, s.Makes (dataUnits s.cfg false .w (s.rw src) ++ dataUnits s.cfg true .w (s.rw d))
    [.ldi d src r, .ldir d src r, .ldd d src r, .lddr d src r]) ∧
  (∀ d src r cc, s.Makes (dataUnits s.cfg false .w (s.rw src))
    [.cpi d src r cc, .cpir d src r cc, .cpd d src r cc, .cpdr d src r cc]) ∧
  (∀ d src r cc, s.Makes (dataUnits s.cfg false .w (s.rw src) ++ dataUnits s.cfg false .w (s.rw d))
    [.cpsi d src r cc, .cpsir d src r cc, .cpsd d src r cc, .cpsdr d src r cc]) ∧
  (∀ d src r, s.Makes (dataUnits s.cfg false .b (s.rw src) ++ dataUnits s.cfg true .b (s.rw d))
    [.ldib d src r, .ldirb d src r, .lddb d src r, .lddrb d src r]) ∧
  (∀ d src r cc, s.Makes (dataUnits s.cfg false .b (s.rw src))
    [.cpib d src r cc, .cpirb d src r cc, .cpdb d src r cc, .cpdrb d src r cc]) ∧
  (∀ d src r cc, s.Makes (dataUnits s.cfg false .b (s.rw src) ++ dataUnits s.cfg false .b (s.rw d))
    [.cpsib d src r cc, .cpsirb d src r cc, .cpsdb d src r cc, .cpsdrb d src r cc]) ∧
  (∀ str table r, s.Makes (dataUnits s.cfg false .b (s.rw str) ++
      dataUnits s.cfg false .b (s.rw table + BitVec.ofNat 16 (s.readByte .data (s.rw str)).toNat) ++
      dataUnits s.cfg true .b (s.rw str))
    [.trib str table r, .trirb str table r, .trdb str table r, .trdrb str table r]) ∧
  (∀ str table r, s.Makes (dataUnits s.cfg false .b (s.rw str) ++
      dataUnits s.cfg false .b (s.rw table + BitVec.ofNat 16 (s.readByte .data (s.rw str)).toNat))
    [.trtib str table r, .trtirb str table r, .trtdb str table r, .trtdrb str table r]) ∧
  (∀ d src r, s.Makes (portUnit .std false .w (s.rw src) ++ dataUnits s.cfg true .w (s.rw d))
    [.ini d src r, .inir d src r, .ind d src r, .indr d src r]) ∧
  (∀ d src r, s.Makes (dataUnits s.cfg false .w (s.rw src) ++ portUnit .std true .w (s.rw d))
    [.outi d src r, .otir d src r, .outd d src r, .otdr d src r]) ∧
  (∀ d src r, s.Makes (portUnit .std false .b (s.rw src) ++ dataUnits s.cfg true .b (s.rw d))
    [.inib d src r, .inirb d src r, .indb d src r, .indrb d src r]) ∧
  (∀ d src r, s.Makes (dataUnits s.cfg false .b (s.rw src) ++ portUnit .std true .b (s.rw d))
    [.outib d src r, .otirb d src r, .outdb d src r, .otdrb d src r]) ∧
  (∀ d src r, s.Makes (portUnit .special false .w (s.rw src) ++ dataUnits s.cfg true .w (s.rw d))
    [.sini d src r, .sinir d src r, .sind d src r, .sindr d src r]) ∧
  (∀ d src r, s.Makes (dataUnits s.cfg false .w (s.rw src) ++ portUnit .special true .w (s.rw d))
    [.souti d src r, .sotir d src r, .soutd d src r, .sotdr d src r]) ∧
  (∀ d src r, s.Makes (portUnit .special false .b (s.rw src) ++ dataUnits s.cfg true .b (s.rw d))
    [.sinib d src r, .sinirb d src r, .sindb d src r, .sindrb d src r]) ∧
  (∀ d src r, s.Makes (dataUnits s.cfg false .b (s.rw src) ++ portUnit .special true .b (s.rw d))
    [.soutib d src r, .sotirb d src r, .soutdb d src r, .sotdrb d src r])

/-- The instructions that make no access. -/
def State.NoAccesses (s : State) : Prop :=
  (∀ d r, s.Makes []
    [.adc d r, .adcb d r, .sbc d r, .sbcb d r, .bitDyn d r, .bitbDyn d r, .setDyn d r, .setbDyn d r, .resDyn d r,
      .resbDyn d r, .sda d r, .sdab d r, .sdal d r, .sdl d r, .sdlb d r, .sdll d r, .rldb d r, .rrdb d r]) ∧
  (∀ d twice, s.Makes []
    [.rl d twice, .rlb d twice, .rr d twice, .rrb d twice, .rlc d twice, .rlcb d twice, .rrc d twice, .rrcb d twice]) ∧
  (∀ d count, s.Makes []
    [.slaSra d count, .slabSrab d count, .slalSral d count, .sllSrl d count, .sllbSrlb d count, .slllSrll d count]) ∧
  (∀ d (src : LaSrc) disp k n, s.Makes [] [.lda d src, .ldar d disp, .ldk d n, .ldbShort d k]) ∧
  (∀ d cc m, s.Makes [] [.tcc cc d, .tccb cc d, .jp cc m, .extsb d, .exts d, .extsl d, .dab d]) ∧
  (∀ cc r j k, s.Makes [] [.jr cc j, .djnz r k, .dbjnz r k]) ∧
  (∀ v n mask, s.Makes [] [.nop, .halt, .di v n, .ei v n, .setflg mask, .resflg mask, .comflg mask]) ∧
  (∀ r k, s.Makes [] [.ldctlRead r k, .ldctlWrite k r, .ldctlbRead r, .ldctlbWrite r])

/-- Divisions, which take an entry on an error (`41_arithmetic.md` R289, R290), EPU words, and the decode and privilege
checks (`60_exceptions.md` R613). -/
def State.EntryAccesses (s : State) : Prop :=
  (∀ d src, (Instr.div d src).wf = true → ∀ q m, IsQuotient (s.rr d).toInt (Src.value s src).toInt q m →
    Instr.bus s (.div d src) = Src.units s src ++ (if -2 ^ 15 ≤ q ∧ q < 2 ^ 15 then [] else s.trapBus .ext)) ∧
  (∀ d src, (Instr.divl d src).wf = true → ∀ q m, IsQuotient (s.rq d).toInt (Src.value s src).toInt q m →
    Instr.bus s (.divl d src) = Src.units s src ++ (if -2 ^ 31 ≤ q ∧ q < 2 ^ 31 then [] else s.trapBus .ext)) ∧
  (∀ d src, (Instr.div d src).wf = true → (Src.value s src).toInt = 0 →
    Instr.bus s (.div d src) = Src.units s src ++ s.trapBus .ext) ∧
  (∀ d src, (Instr.divl d src).wf = true → (Src.value s src).toInt = 0 →
    Instr.bus s (.divl d src) = Src.units s src ++ s.trapBus .ext) ∧
  (∀ page op, s.epa = false → Instr.bus s (.epu page op) = s.trapBus .ext) ∧
  (∀ i : Instr, i.wf = false → Instr.bus s i = s.trapBus .ext) ∧
  (∀ i : Instr, i.wf = true → Instr.isPrivileged i = true → s.sysMode = false → Instr.bus s i = s.trapBus .priv)

/-! ## Encodings -/

/-- For the formats whose second word has fixed bits, the bits of it that are fields: BX, DYN and SHD bits 11:8, LDM
bits 11:8 and 3:0, block and translate bits 11:0 (`30_encoding.md` R121). -/
def secondWordFields (w : Word) : Option Word :=
  if w.hi ∈ [0x70, 0x71, 0x72, 0x73, 0x74, 0x75, 0x77] then some 0x0F00
  else if w.hi ∈ [0x22, 0x23, 0x24, 0x25, 0x26, 0x27] ∧ w.digit1 = 0 then some 0x0F00
  else if w.hi ∈ [0xB2, 0xB3] ∧ w.digit0 ∈ [0x3, 0x7, 0xB, 0xF] then some 0x0F00
  else if w.hi ∈ [0x1C, 0x5C] ∧ w.digit0 ∈ [0x1, 0x9] then some 0x0F0F
  else if w.hi ∈ [0xB8, 0xBA, 0xBB] ∨ w.hi ∈ [0x3A, 0x3B] ∧ w.digit0 ∉ [0x4, 0x5, 0x6, 0x7] then some 0x0FFF
  else none

/-- The low digits that a first byte uses, for the first bytes that use some of the sixteen and do not depend on the other
low digit (`30_encoding.md` R126, R127). -/
def usedDigits (h : Byte) : Option (List Reg) :=
  if h ∈ [0x0C, 0x4C, 0x4D] then some [0, 1, 2, 4, 5, 6, 8]
  else if h = 0x0D then some [0, 1, 2, 4, 5, 6, 8, 9]
  else if h ∈ [0x1C, 0x5C] then some [1, 8, 9]
  else if h ∈ [0x1F, 0x39, 0x5F, 0x79, 0xB0] then some [0]
  else if h ∈ [0x3A, 0x3B] then some [0, 1, 2, 3, 4, 5, 6, 7, 8, 9, 10, 11]
  else if h = 0x7D then some [2, 3, 5, 7, 10, 11, 13, 15]
  else if h = 0x8C then some [0, 1, 2, 4, 6, 8, 9]
  else if h = 0x8D then some [0, 1, 2, 3, 4, 5, 6, 7, 8]
  else if h = 0x9C then some [8]
  else if h = 0xB1 then some [0, 7, 10]
  else if h = 0xB2 then some [0, 1, 2, 3, 4, 6, 8, 9, 10, 11, 12, 14]
  else if h = 0xB8 then some [0, 2, 4, 6, 8, 10, 12, 14]
  else if h ∈ [0xBA, 0xBB] then some [0, 1, 2, 4, 6, 8, 9, 10, 12, 14]
  else none

/-- The first words that no row of `opcode_table.json` matches (`30_encoding.md` R127). -/
def unassigned (w : Word) : Bool :=
  w.hi ∈ [0x36, 0x38, 0x78, 0x7E, 0x9D, 0x9F, 0xB9, 0xBF] ||
  (match usedDigits w.hi with
   | some used => !used.contains w.digit0
   | none => false) ||
  (w.hi == 0x7A && w.lo != 0x00) ||
  (w.hi == 0x7B && !(w.lo ∈ [0x00, 0x08, 0x09, 0x0A] || w.digit0 == 0xD)) ||
  (w.hi == 0x7C && 0x08 ≤ w.lo) ||
  (w.hi == 0x8D && w.digit0 == 0x7 && w.digit1 != 0) ||
  (w.hi == 0x9E && w.digit1 != 0)

/-! ## Block instructions -/

/-- How far a pointer moves in an iteration of width `z` (`47_block.md` R500). -/
def pointerMove (z : Size) (down : Bool) : Word := if down then 0 - z.bytes else z.bytes

/-- The change of register `n` in an iteration that moves the pointers `ps` by `k` and takes 1 from the count `r`,
the registers being possibly the same (`47_block.md` R502, "Order"). -/
def blockDelta (ps : List Reg) (k : Word) (r n : Reg) : Word :=
  BitVec.ofNat 16 (ps.count n) * k - (if n = r then 1 else 0)

/-- Registers, V, `reexec` and PC after an iteration over pointers `ps`, from registers `rw0` (`47_block.md` R500,
R502, R504): V says that the count became 0, and the instruction goes on when `again` holds and it did not. -/
structure State.Iterated (s t : State) (rw0 : Reg → Word) (ps : List Reg) (k : Word) (r : Reg) (again : Bool) : Prop where
  regs : ∀ n, t.rw n = rw0 n + blockDelta ps k r n
  v : t.flagV = decide (t.rw r = 0)
  reexec : t.reexec = (s.reexec || (again && decide (t.rw r ≠ 0)))
  pc : t.pc = s.pc

/-- The word at the PC is not RESET under `P_RESET_OPCODE` (`45_system.md` R450). -/
def State.NotResetWord (s : State) : Prop :=
  ∀ mask value, s.cfg.resetOpcode = some (mask, value) → s.readWord .prog s.pc &&& mask ≠ value

/-! ## What single instructions do, for the statements that cover several of one shape -/

/-- `r` is `x` with bit `i` replaced by `b`. -/
def ReplacesBit {w : Nat} (x r : BitVec w) (i : Nat) (b : Bool) : Prop :=
  ∀ k, k < w → r.getLsbD k = if k = i then b else x.getLsbD k

/-- What an arithmetic shift of a register by a count in range does (R370, R371). -/
def ShiftsArith (z : Size) (i : Instr) (d : Reg) (count : Word) (s : State) : Prop :=
  -(z.bits : Int) ≤ count.toInt → count.toInt ≤ z.bits → ∃ t, exec i s = .next t ∧
    Shifted true (s.reg z d) count.toInt (t.reg z d) t ∧ (t.flagV = true ↔ signLeft (s.reg z d) count.toInt) ∧
    s.Straight t (destRegs z d) [bitC, bitZ, bitS, bitV] .data [] ∧ (z = .b → ∀ n, n ≠ d → t.rb n = s.rb n)

/-- What a logical shift of a register by a count in range does, V left open (R370, R371). -/
def ShiftsLogic (z : Size) (i : Instr) (d : Reg) (count : Word) (s : State) : Prop :=
  -(z.bits : Int) ≤ count.toInt → count.toInt ≤ z.bits → ∃ t, exec i s = .next t ∧
    Shifted false (s.reg z d) count.toInt (t.reg z d) t ∧
    s.Straight t (destRegs z d) [bitC, bitZ, bitS, bitV] .data [] ∧ (z = .b → ∀ n, n ≠ d → t.rb n = s.rb n)

/-- A shift that only changes its register and C, Z, S, V. -/
def ShiftCompletes (z : Size) (i : Instr) (d : Reg) (s : State) : Prop :=
  ∃ t, exec i s = .next t ∧ s.Straight t (destRegs z d) [bitC, bitZ, bitS, bitV] .data [] ∧
    (z = .b → ∀ n, n ≠ d → t.rb n = s.rb n)

/-- An input of the word or byte the port answers into register `d` (R470). -/
def Inputs (z : Size) (ios : IoSpace) (i : Instr) (d : Reg) (port : Word) (s : State) : Prop :=
  ∃ (t : State) (v : z.Val), exec i s = .next t ∧ v = Config.freeIo z ios port s.draws ∧ t.reg z d = v ∧
    t.io = s.io ++ [{ space := ios, write := false, size := z, port := port, value := v }] ∧
    s.FrameCore t (destRegs z d) [] .data [] ∧ t.pc = s.pc ∧ t.reexec = s.reexec ∧
    (z = .b → ∀ n, n ≠ d → t.rb n = s.rb n)

/-- An output of register `r` to a port (R470). -/
def Outputs (z : Size) (ios : IoSpace) (i : Instr) (port : Word) (r : Reg) (s : State) : Prop :=
  ∃ t, exec i s = .next t ∧
    t.io = s.io ++ [{ space := ios, write := true, size := z, port := port, value := s.reg z r }] ∧
    s.FrameCore t [] [] .data [] ∧ t.pc = s.pc ∧ t.reexec = s.reexec

/-- One iteration of a block transfer (R505 to R512). -/
def MovesOne (z : Size) (down repeats : Bool) (d src r : Reg) (i : Instr) (s : State) : Prop :=
  ∃ t, exec i s = .next t ∧ t.memRead .data z (s.rw d) = s.memRead .data z (s.rw src) ∧
    s.Iterated t s.rw [src, d] (pointerMove z down) r repeats ∧
    s.FrameCore t [src, d, r] [bitV] .data (accessBytes s.cfg z (s.rw d)) ∧ t.io = s.io

/-- One iteration of a block compare of `a` with `b`: the flags of `a - b`, Z saying that the condition holds for that
pair, V that the count became 0, and going on only while neither does (R504). -/
def ComparesOne {w : Nat} (a b : BitVec w) (ps : List Reg) (k : Word) (repeats : Bool) (r : Reg) (cc : Cc) (i : Instr)
    (s : State) : Prop :=
  ∃ (t u : State) (hit : Bool), exec i s = .next t ∧ IsCompare a b u ∧ hit = u.holds cc ∧
    t.flagC = u.flagC ∧ t.flagS = u.flagS ∧ t.flagZ = hit ∧
    s.Iterated t s.rw ps k r (repeats && !hit) ∧
    s.FrameCore t (r :: ps) [bitC, bitZ, bitS, bitV] .data [] ∧ t.io = s.io

/-- The table byte for the string byte at RW[str] (R561). -/
def tableByte (s : State) (str table : Reg) : Byte :=
  s.readByte .data (s.rw table + BitVec.ofNat 16 (s.readByte .data (s.rw str)).toNat)

/-- One iteration of a translation in place (R561 to R564). -/
def TranslatesOne (down repeats : Bool) (d table r : Reg) (i : Instr) (s : State) : Prop :=
  ∃ t, exec i s = .next t ∧ t.readByte .data (s.rw d) = tableByte s d table ∧
    s.Iterated t s.rw [d] (pointerMove .b down) r repeats ∧
    s.FrameCore t [d, r] [bitV] .data [s.rw d] ∧ t.io = s.io

/-- One iteration of a translation with test (R565 to R568): the byte goes to RH1 before the pointer and count move, and
Z says that it is 0. -/
def TranslateTestsOne (down repeats : Bool) (str table r : Reg) (i : Instr) (s : State) : Prop :=
  ∃ t, exec i s = .next t ∧
    s.Iterated t (s.setRb 1 (tableByte s str table)).rw [str] (pointerMove .b down) r
      (repeats && decide (tableByte s str table = 0)) ∧
    t.flagZ = decide (tableByte s str table = 0) ∧ (str ≠ 1 → r ≠ 1 → t.rb 1 = tableByte s str table) ∧
    s.FrameCore t [1, str, r] [bitZ, bitV] .data [] ∧ t.io = s.io

/-- One iteration of a block input (R529): one port read, then one memory write. -/
def InputsOne (z : Size) (ios : IoSpace) (down repeats : Bool) (d src r : Reg) (i : Instr) (s : State) : Prop :=
  ∃ (t : State) (v : z.Val), exec i s = .next t ∧ v = Config.freeIo z ios (s.rw src) s.draws ∧
    t.io = s.io ++ [{ space := ios, write := false, size := z, port := s.rw src, value := v }] ∧
    t.memRead .data z (s.rw d) = v ∧
    s.Iterated t s.rw [d] (pointerMove z down) r repeats ∧
    s.FrameCore t [d, r] [bitV] .data (accessBytes s.cfg z (s.rw d))

/-- One iteration of a block output (R545): one memory read, then one port write. -/
def OutputsOne (z : Size) (ios : IoSpace) (down repeats : Bool) (d src r : Reg) (i : Instr) (s : State) : Prop :=
  ∃ t, exec i s = .next t ∧
    t.io = s.io ++ [{ space := ios, write := true, size := z, port := s.rw d, value := s.memRead .data z (s.rw src) }] ∧
    s.Iterated t s.rw [src] (pointerMove z down) r repeats ∧ s.FrameCore t [src, r] [bitV] .data []

end Sys2Proof.Machine
end

