-- ==== Sys2Proof/Certificates/Slice0/Obligations.lean ====
section
/-! DEFINITION. Certificates/Slice0/Obligations.lean: the statements for the provers. Each docstring names the rule of
`spec/` it formalises. An instruction's `exec` runs with the PC already after the instruction (`10_state.md` R40), which
`Obligations.StepRunsTheDecodedInstruction` ties to `step`. -/

open Sys2Proof Sys2Proof.Machine

/-! ## Encoding and decoding -/

/-- `30_encoding.md` R110 to R124: decoding the encoded words of any well-formed instruction gives it back, whatever
bytes follow. -/
def Obligations.DecodeInvertsEncode : Prop :=
  ∀ (i : Instr) (rest : List Byte), i.wf = true → decode (bytesOf i.encode ++ rest) = .ok i rest

/-- Words the spec writes out in its examples decode to the instruction each stands for. -/
def Obligations.WrittenWordsDecode : Prop :=
  decode [0x21, 0x01, 0x12, 0x34] = .ok (.ld 1 (.src (.imm 0x1234))) [] ∧
  decode [0xC3, 0x7F] = .ok (.ldbShort 3 0x7F) [] ∧
  decode [0x5D, 0x02, 0x30, 0x00] = .ok (.ldlSt (.mem (.da 0x3000)) 2) [] ∧
  decode [0x5C, 0x09, 0x01, 0x0F, 0x30, 0x00] = .ok (.ldmSt (.da 0x3000) 1 15) [] ∧
  decode [0x81, 0x21] = .ok (.add 1 (.reg 2)) [] ∧
  decode [0xA9, 0x30] = .ok (.inc (.reg 3) 0) [] ∧
  decode [0x27, 0x00, 0x01, 0x00] = .ok (.bitDyn 1 0) [] ∧
  decode [0xB3, 0x19, 0xFF, 0xFF] = .ok (.slaSra 1 0xFFFF) [] ∧
  decode [0xF3, 0x82] = .ok (.djnz 3 2) [] ∧
  decode [0x7A, 0x00] = .ok .halt [] ∧
  decode [0x3B, 0x44, 0x00, 0x00] = .ok (.inDir 4 0) [] ∧
  decode [0xBB, 0x44, 0x05, 0x36] = .ok (.cpir 3 4 5 .eq) []

/-- `30_encoding.md` R122: the bits of a second word that R121 shows as `0000` are not checked. -/
def Obligations.UncheckedSecondWordBitsAreIgnored : Prop :=
  ∀ (w1 w2 w3 fields : Word), secondWordFields w1 = some fields →
    decodeWords w1 w2 w3 = decodeWords w1 (w2 &&& fields) w3

/-- `30_encoding.md` R110: the first word alone says whether a word is assigned and how long the instruction is, one,
two or three words. -/
def Obligations.FirstWordDecidesLength : Prop :=
  ∀ (w1 w2 w3 v2 v3 : Word), (decodeWords w1 w2 w3).isSome = (decodeWords w1 v2 v3).isSome ∧
    ∀ i j, decodeWords w1 w2 w3 = some i → decodeWords w1 v2 v3 = some j →
      i.words = j.words ∧ 1 ≤ i.words ∧ i.words ≤ 3

/-- `30_encoding.md` R127, `60_exceptions.md` R603, R621: the first words the decoder rejects, whatever follows them, are
those that no row of the table matches; a step at one takes the extended-instruction trap with the address after that
word as the saved PC. That a word `P_RESET_OPCODE` matches is RESET and none of these is the model's choice (log 11), as
are the draw counter, the count of cycles and the list `bus` that the step's `tick` moves on (log 6, log 7, log 19). -/
def Obligations.UnassignedWordsTrap : Prop :=
  (∀ w w2 w3 : Word, decodeWords w w2 w3 = none ↔ unassigned w = true) ∧
  (∀ s : State, s.acceptable = none → s.halt = false → s.NotResetWord →
    decodeWords (s.readWord .prog s.pc) (s.readWord .prog (s.pc + 2)) (s.readWord .prog (s.pc + 4)) = none →
    ∃ t, step s = .next (t.tick s.stepBus) ∧ (s.setPc (s.pc + 2)).Entered t (s.psap + 0x06) (s.psap + 0x08) none ∧
      s.SameLatches t)

/-! ## Registers and memory -/

/-- `10_state.md` R33: what a byte register is, and that writing one changes only that byte. -/
def Obligations.ByteRegisterViews : Prop :=
  ∀ (s : State) (n m : Reg) (v : Byte),
    s.rb n = (if n.toNat < 8 then (s.rw n).extractLsb' 8 8 else (s.rw (n - 8)).extractLsb' 0 8) ∧
    (s.setRb n v).rb n = v ∧ (m ≠ n → (s.setRb n v).rb m = s.rb m) ∧
    (m ≠ (if n.toNat < 8 then n else n - 8) → (s.setRb n v).rw m = s.rw m)

/-- `10_state.md` R34, R35, R36: a long register is two words and a quad register four, the first word high; a write
through a view is seen through the word registers it covers and through no other. -/
def Obligations.LongAndQuadRegisterViews : Prop :=
  ∀ (s : State) (n m : Reg) (v : Long) (q : Quad),
    (n.toNat % 2 = 0 → s.rr n = s.rw n ++ s.rw (n + 1) ∧
      (s.setRr n v).rw n = v.extractLsb' 16 16 ∧ (s.setRr n v).rw (n + 1) = v.extractLsb' 0 16 ∧
      (m ≠ n → m ≠ n + 1 → (s.setRr n v).rw m = s.rw m)) ∧
    (n.toNat % 4 = 0 → s.rq n = s.rw n ++ s.rw (n + 1) ++ (s.rw (n + 2) ++ s.rw (n + 3)) ∧
      (s.setRq n q).rw n = q.extractLsb' 48 16 ∧ (s.setRq n q).rw (n + 1) = q.extractLsb' 32 16 ∧
      (s.setRq n q).rw (n + 2) = q.extractLsb' 16 16 ∧ (s.setRq n q).rw (n + 3) = q.extractLsb' 0 16 ∧
      (m ∉ [n, n + 1, n + 2, n + 3] → (s.setRq n q).rw m = s.rw m)) ∧
    (s.setRr 0 0x11223344).rb 0 = 0x11 ∧ (s.setRr 0 0x11223344).rb 8 = 0x22 ∧
    (s.setRr 0 0x11223344).rb 1 = 0x33 ∧ (s.setRr 0 0x11223344).rb 9 = 0x44

/-- `10_state.md` R37, R38: R15 is SSP in system mode and NSP in normal mode; writing R15 keeps the other pointer, and
writing the FCW keeps both. -/
def Obligations.StackPointerBanking : Prop :=
  ∀ (s : State) (v f : Word),
    (s.rw 15 = if s.fcw.getLsbD 14 then s.ssp else s.nsp) ∧
    (s.fcw.getLsbD 14 = true → (s.setRw 15 v).ssp = v ∧ (s.setRw 15 v).nsp = s.nsp) ∧
    (s.fcw.getLsbD 14 = false → (s.setRw 15 v).nsp = v ∧ (s.setRw 15 v).ssp = s.ssp) ∧
    ((s.writeFcw f).rw 15 = if f.getLsbD 14 then s.ssp else s.nsp) ∧
    (∀ n, n ≠ 15 → (s.writeFcw f).rw n = s.rw n)

/-- `20_memory.md` R80 to R84, R89, R90: word and long accesses are big-endian, high word first, addresses modulo 2^16;
a word access at an odd address uses the even one below (`force_even`) or splits (`split`); what is written reads back,
and every byte outside the access keeps its value, in both spaces. -/
def Obligations.MemoryAccessesAreBigEndian : Prop :=
  ∀ (s : State) (sp sp' : Space) (a b : Word) (v : Word) (l : Long),
    let e := if s.cfg.oddWord = .forceEven then a &&& 0xFFFE else a
    s.readWord sp a = s.readByte sp e ++ s.readByte sp (e + 1) ∧
    s.readLong sp a = s.readWord sp a ++ s.readWord sp (a + 2) ∧
    (s.writeWord sp a v).readByte sp e = v.extractLsb' 8 8 ∧
    (s.writeWord sp a v).readByte sp (e + 1) = v.extractLsb' 0 8 ∧
    (b ≠ e → b ≠ e + 1 → (s.writeWord sp a v).readByte sp' b = s.readByte sp' b) ∧
    (s.writeLong sp a l).readByte sp e = l.extractLsb' 24 8 ∧
    (s.writeLong sp a l).readByte sp (e + 1) = l.extractLsb' 16 8 ∧
    (s.writeLong sp a l).readByte sp (e + 2) = l.extractLsb' 8 8 ∧
    (s.writeLong sp a l).readByte sp (e + 3) = l.extractLsb' 0 8 ∧
    (b ∉ [e, e + 1, e + 2, e + 3] → (s.writeLong sp a l).readByte sp' b = s.readByte sp' b) ∧
    (sp' ≠ sp → s.cfg.separateData = true → (s.writeLong sp a l).readByte sp' b = s.readByte sp' b)

/-- `30_encoding.md` R115: the effective address of each mode and the value of each operand form, at every width. -/
def Obligations.EffectiveAddresses : Prop :=
  ∀ (s : State) (a x n : Reg) (addr disp : Word) (m : MemOp) (o : Based) (kb : Byte) (kw : Word) (kl : Long),
    (MemOp.ea s (.ir a) = s.rw a ∧ MemOp.ea s (.da addr) = addr ∧ MemOp.ea s (.x addr a) = addr + s.rw a ∧
      Based.ea s (.ba a disp) = s.rw a + disp ∧ Based.ea s (.bx a x) = s.rw a + s.rw x ∧ relEa s disp = s.pc + disp) ∧
    (StDst.ea s (.mem m) = MemOp.ea s m ∧ StDst.ea s (.based o) = Based.ea s o ∧
      LaSrc.ea s (.da addr) = addr ∧ LaSrc.ea s (.x addr a) = addr + s.rw a ∧ LaSrc.ea s (.based o) = Based.ea s o) ∧
    (Src.value s (.reg n : Src .b) = s.rb n ∧ Src.value s (.reg n : Src .w) = s.rw n ∧
      Src.value s (.reg n : Src .l) = s.rr n) ∧
    (Src.value s (.imm kb : Src .b) = kb ∧ Src.value s (.imm kw : Src .w) = kw ∧ Src.value s (.imm kl : Src .l) = kl) ∧
    (Src.value s (.mem m : Src .b) = s.readByte .data (MemOp.ea s m) ∧
      Src.value s (.mem m : Src .w) = s.readWord .data (MemOp.ea s m) ∧
      Src.value s (.mem m : Src .l) = s.readLong .data (MemOp.ea s m)) ∧
    (∀ (z : Size) (src : Src z), LdSrc.value s (.src src) = Src.value s src) ∧
    (LdSrc.value s (.based o : LdSrc .b) = s.readByte .data (Based.ea s o) ∧
      LdSrc.value s (.based o : LdSrc .w) = s.readWord .data (Based.ea s o) ∧
      LdSrc.value s (.based o : LdSrc .l) = s.readLong .data (Based.ea s o)) ∧
    (RegMem.value s .b (.reg n) = s.rb n ∧ RegMem.value s .w (.reg n) = s.rw n ∧ RegMem.value s .l (.reg n) = s.rr n) ∧
    (RegMem.value s .b (.mem m) = s.readByte .data (MemOp.ea s m) ∧
      RegMem.value s .w (.mem m) = s.readWord .data (MemOp.ea s m) ∧
      RegMem.value s .l (.mem m) = s.readLong .data (MemOp.ea s m)) ∧
    (∀ z, RegMem.bytes s z (.reg n) = [] ∧ RegMem.bytes s z (.mem m) = accessBytes s.cfg z (MemOp.ea s m))

/-- `30_encoding.md` R125: the sixteen condition codes. -/
def Obligations.ConditionCodes : Prop :=
  ∀ s : State,
    let c := s.fcw.getLsbD 7; let z := s.fcw.getLsbD 6; let g := s.fcw.getLsbD 5; let v := s.fcw.getLsbD 4
    s.holds (.ofBits 0) = false ∧ s.holds (.ofBits 8) = true ∧
    s.holds (.ofBits 1) = (g ^^ v) ∧ s.holds (.ofBits 9) = !(g ^^ v) ∧
    s.holds (.ofBits 2) = (z || (g ^^ v)) ∧ s.holds (.ofBits 10) = !(z || (g ^^ v)) ∧
    s.holds (.ofBits 3) = (c || z) ∧ s.holds (.ofBits 11) = !(c || z) ∧
    s.holds (.ofBits 4) = v ∧ s.holds (.ofBits 12) = !v ∧ s.holds (.ofBits 5) = g ∧ s.holds (.ofBits 13) = !g ∧
    s.holds (.ofBits 6) = z ∧ s.holds (.ofBits 14) = !z ∧ s.holds (.ofBits 7) = c ∧ s.holds (.ofBits 15) = !c

/-! ## Data movement (`40_data_movement.md`) -/

/-- R201, R202, R203: LD, LDB, LDL into a register, every source form. -/
def Obligations.LoadsWriteTheRegister : Prop :=
  (∀ s d src, (Instr.ld d src).wf = true →
    ∃ t, exec (.ld d src) s = .next t ∧ t.rw d = LdSrc.value s src ∧ s.Straight t [d] [] .data []) ∧
  (∀ s d src, (Instr.ldb d src).wf = true →
    ∃ t, exec (.ldb d src) s = .next t ∧ t.rb d = LdSrc.value s src ∧ s.Straight t [byteHome d] [] .data [] ∧
      ∀ n, n ≠ d → t.rb n = s.rb n) ∧
  (∀ s d k, ∃ t, exec (.ldbShort d k) s = .next t ∧ t.rb d = k ∧ s.Straight t [byteHome d] [] .data [] ∧
      ∀ n, n ≠ d → t.rb n = s.rb n) ∧
  (∀ s d src, (Instr.ldl d src).wf = true →
    ∃ t, exec (.ldl d src) s = .next t ∧ t.rr d = LdSrc.value s src ∧ s.Straight t [d, d + 1] [] .data [])

/-- R209, R211, R213, R215, R216, R217: LDR, LDRB, LDRL, LDA, LDAR, LDK. -/
def Obligations.RelativeAndConstantLoads : Prop :=
  (∀ s d disp, ∃ t, exec (.ldr d disp) s = .next t ∧ t.rw d = s.readWord .data (s.pc + disp) ∧
    s.Straight t [d] [] .data []) ∧
  (∀ s d disp, ∃ t, exec (.ldrb d disp) s = .next t ∧ t.rb d = s.readByte .data (s.pc + disp) ∧
    s.Straight t [byteHome d] [] .data [] ∧ ∀ n, n ≠ d → t.rb n = s.rb n) ∧
  (∀ s d disp, (Instr.ldrl d disp).wf = true → ∃ t, exec (.ldrl d disp) s = .next t ∧
    t.rr d = s.readLong .data (s.pc + disp) ∧ s.Straight t [d, d + 1] [] .data []) ∧
  (∀ s d src, (Instr.lda d src).wf = true → ∃ t, exec (.lda d src) s = .next t ∧
    t.rw d = LaSrc.ea s src ∧ s.Straight t [d] [] .data []) ∧
  (∀ s d disp, ∃ t, exec (.ldar d disp) s = .next t ∧ t.rw d = s.pc + disp ∧ s.Straight t [d] [] .data []) ∧
  (∀ s d n, ∃ t, exec (.ldk d n) s = .next t ∧ (t.rw d).toNat = n.toNat ∧ s.Straight t [d] [] .data [])

/-- R204 to R208, R210, R212, R214: every store writes the value at its effective address in DATA and changes no other
byte and no register. -/
def Obligations.StoresWriteOnlyTheirBytes : Prop :=
  (∀ s dst r, (Instr.ldSt dst r).wf = true → ∃ t, exec (.ldSt dst r) s = .next t ∧
    t.readWord .data (StDst.ea s dst) = s.rw r ∧ s.Straight t [] [] .data (accessBytes s.cfg .w (StDst.ea s dst))) ∧
  (∀ s dst r, (Instr.ldbSt dst r).wf = true → ∃ t, exec (.ldbSt dst r) s = .next t ∧
    t.readByte .data (StDst.ea s dst) = s.rb r ∧ s.Straight t [] [] .data [StDst.ea s dst]) ∧
  (∀ s dst r, (Instr.ldlSt dst r).wf = true → ∃ t, exec (.ldlSt dst r) s = .next t ∧
    t.readLong .data (StDst.ea s dst) = s.rr r ∧ s.Straight t [] [] .data (accessBytes s.cfg .l (StDst.ea s dst))) ∧
  (∀ s dst k, (Instr.ldImm dst k).wf = true → ∃ t, exec (.ldImm dst k) s = .next t ∧
    t.readWord .data (MemOp.ea s dst) = k ∧ s.Straight t [] [] .data (accessBytes s.cfg .w (MemOp.ea s dst))) ∧
  (∀ s dst k, (Instr.ldbImm dst k).wf = true → ∃ t, exec (.ldbImm dst k) s = .next t ∧
    t.readByte .data (MemOp.ea s dst) = k ∧ s.Straight t [] [] .data [MemOp.ea s dst]) ∧
  (∀ s disp r, ∃ t, exec (.ldrSt disp r) s = .next t ∧ t.readWord .data (s.pc + disp) = s.rw r ∧
    s.Straight t [] [] .data (accessBytes s.cfg .w (s.pc + disp))) ∧
  (∀ s disp r, ∃ t, exec (.ldrbSt disp r) s = .next t ∧ t.readByte .data (s.pc + disp) = s.rb r ∧
    s.Straight t [] [] .data [s.pc + disp]) ∧
  (∀ s disp r, (Instr.ldrlSt disp r).wf = true → ∃ t, exec (.ldrlSt disp r) s = .next t ∧
    t.readLong .data (s.pc + disp) = s.rr r ∧ s.Straight t [] [] .data (accessBytes s.cfg .l (s.pc + disp)))

/-- R218, R219: LDM moves `n + 1` words between consecutive addresses and consecutive registers, the register number
wrapping from R15 to R0, the address computed once. -/
def Obligations.LoadAndStoreMultiple : Prop :=
  (∀ s d src n, (Instr.ldm d src n).wf = true → ∃ t, exec (.ldm d src n) s = .next t ∧
    (∀ k, k ≤ n.toNat → t.rw (d + BitVec.ofNat 4 k) = s.readWord .data (MemOp.ea s src + BitVec.ofNat 16 (2 * k))) ∧
    s.Straight t ((List.range (n.toNat + 1)).map fun k => d + BitVec.ofNat 4 k) [] .data []) ∧
  (∀ s dst r n, (Instr.ldmSt dst r n).wf = true → ∃ t, exec (.ldmSt dst r n) s = .next t ∧
    (∀ k, k ≤ n.toNat → t.readWord .data (MemOp.ea s dst + BitVec.ofNat 16 (2 * k)) = s.rw (r + BitVec.ofNat 4 k)) ∧
    s.Straight t [] [] .data
      ((List.range (n.toNat + 1)).flatMap fun k => accessBytes s.cfg .w (MemOp.ea s dst + BitVec.ofNat 16 (2 * k))))

/-- R220 to R223: CLR and CLRB write zero; EX and EXB exchange the register with the operand, whose address is taken
first. -/
def Obligations.ClearAndExchange : Prop :=
  (∀ s dst, (Instr.clr dst).wf = true → ∃ t, exec (.clr dst) s = .next t ∧ RegMem.after s t .w dst = 0 ∧
    s.Straight t (RegMem.regs .w dst) [] .data (RegMem.bytes s .w dst)) ∧
  (∀ s dst, (Instr.clrb dst).wf = true → ∃ t, exec (.clrb dst) s = .next t ∧ RegMem.after s t .b dst = 0 ∧
    s.Straight t (RegMem.regs .b dst) [] .data (RegMem.bytes s .b dst) ∧
    ∀ n, dst ≠ .reg n → t.rb n = s.rb n) ∧
  (∀ s d src, (Instr.ex d src).wf = true → ∃ t, exec (.ex d src) s = .next t ∧
    t.rw d = RegMem.value s .w src ∧ RegMem.after s t .w src = s.rw d ∧
    s.Straight t (d :: RegMem.regs .w src) [] .data (RegMem.bytes s .w src)) ∧
  (∀ s d src, (Instr.exb d src).wf = true → ∃ t, exec (.exb d src) s = .next t ∧
    t.rb d = RegMem.value s .b src ∧ RegMem.after s t .b src = s.rb d ∧
    s.Straight t (byteHome d :: RegMem.regs .b src) [] .data (RegMem.bytes s .b src) ∧
    ∀ n, n ≠ d → src ≠ .reg n → t.rb n = s.rb n)

/-- R224 to R227, `20_memory.md` R87: PUSH and PUSHL read the source first, lower the named register by the width and store
at its new value in PROG; POP and POPL read the old top of stack in PROG, raise the named register by the width and then
write the destination, whose address is computed after that. -/
def Obligations.PushAndPop : Prop :=
  (∀ s d src, (Instr.push d src).wf = true → ∃ t, exec (.push d src) s = .next t ∧
    t.rw d = s.rw d - 2 ∧ t.readWord .prog (s.rw d - 2) = Src.value s src ∧
    s.Straight t [d] [] .prog (accessBytes s.cfg .w (s.rw d - 2))) ∧
  (∀ s d src, (Instr.pushl d src).wf = true → ∃ t, exec (.pushl d src) s = .next t ∧
    t.rw d = s.rw d - 4 ∧ t.readLong .prog (s.rw d - 4) = RegMem.value s .l src ∧
    s.Straight t [d] [] .prog (accessBytes s.cfg .l (s.rw d - 4))) ∧
  (∀ s dst r, (Instr.pop dst r).wf = true → ∃ t, exec (.pop dst r) s = .next t ∧
    RegMem.after (s.setRw r (s.rw r + 2)) t .w dst = s.readWord .prog (s.rw r) ∧
    (r ∉ RegMem.regs .w dst → t.rw r = s.rw r + 2) ∧
    s.Straight t (r :: RegMem.regs .w dst) [] .data (RegMem.bytes (s.setRw r (s.rw r + 2)) .w dst)) ∧
  (∀ s dst r, (Instr.popl dst r).wf = true → ∃ t, exec (.popl dst r) s = .next t ∧
    RegMem.after (s.setRw r (s.rw r + 4)) t .l dst = s.readLong .prog (s.rw r) ∧
    (r ∉ RegMem.regs .l dst → t.rw r = s.rw r + 4) ∧
    s.Straight t (r :: RegMem.regs .l dst) [] .data (RegMem.bytes (s.setRw r (s.rw r + 4)) .l dst))

/-! ## Arithmetic (`41_arithmetic.md`) -/

/-- R264, R266, R267, R269, R271, R272 with R260, R261, R263: word and long add and subtract, with and without carry. H
is written by the word forms under `doc` only, and D by none of them. -/
def Obligations.WordAndLongAddSubtract : Prop :=
  (∀ s d src, (Instr.add d src).wf = true → ∃ t, exec (.add d src) s = .next t ∧
    IsSum (s.rw d) (Src.value s src) false (t.rw d) t ∧ t.flagC = sumCarry (s.rw d) (Src.value s src) false ∧
    (t.flagH = if s.docFlags then sumHalf 12 (s.rw d) (Src.value s src) false else s.flagH) ∧
    s.Straight t [d] [bitC, bitZ, bitS, bitV, bitH] .data []) ∧
  (∀ s d r, ∃ t, exec (.adc d r) s = .next t ∧
    IsSum (s.rw d) (s.rw r) s.flagC (t.rw d) t ∧ t.flagC = sumCarry (s.rw d) (s.rw r) s.flagC ∧
    (t.flagH = if s.docFlags then sumHalf 12 (s.rw d) (s.rw r) s.flagC else s.flagH) ∧
    s.Straight t [d] [bitC, bitZ, bitS, bitV, bitH] .data []) ∧
  (∀ s d src, (Instr.sub d src).wf = true → ∃ t, exec (.sub d src) s = .next t ∧
    IsDiff (s.rw d) (Src.value s src) false (t.rw d) t ∧ t.flagC = diffBorrow (s.rw d) (Src.value s src) false ∧
    (t.flagH = if s.docFlags then diffHalf 12 (s.rw d) (Src.value s src) false else s.flagH) ∧
    s.Straight t [d] [bitC, bitZ, bitS, bitV, bitH] .data []) ∧
  (∀ s d r, ∃ t, exec (.sbc d r) s = .next t ∧
    IsDiff (s.rw d) (s.rw r) s.flagC (t.rw d) t ∧ t.flagC = diffBorrow (s.rw d) (s.rw r) s.flagC ∧
    (t.flagH = if s.docFlags then diffHalf 12 (s.rw d) (s.rw r) s.flagC else s.flagH) ∧
    s.Straight t [d] [bitC, bitZ, bitS, bitV, bitH] .data []) ∧
  (∀ s d src, (Instr.addl d src).wf = true → ∃ t, exec (.addl d src) s = .next t ∧
    IsSum (s.rr d) (Src.value s src) false (t.rr d) t ∧ t.flagC = sumCarry (s.rr d) (Src.value s src) false ∧
    s.Straight t [d, d + 1] [bitC, bitZ, bitS, bitV] .data []) ∧
  (∀ s d src, (Instr.subl d src).wf = true → ∃ t, exec (.subl d src) s = .next t ∧
    IsDiff (s.rr d) (Src.value s src) false (t.rr d) t ∧ t.flagC = diffBorrow (s.rr d) (Src.value s src) false ∧
    s.Straight t [d, d + 1] [bitC, bitZ, bitS, bitV] .data [])

/-- R265, R268, R270, R273, R295: byte add and subtract write H in both profiles and D by their direction, and keep the
other byte of the word register. -/
def Obligations.ByteAddSubtract : Prop :=
  (∀ s d src, (Instr.addb d src).wf = true → ∃ t, exec (.addb d src) s = .next t ∧
    IsSum (s.rb d) (Src.value s src) false (t.rb d) t ∧ t.flagC = sumCarry (s.rb d) (Src.value s src) false ∧
    t.flagH = sumHalf 4 (s.rb d) (Src.value s src) false ∧ t.flagD = false ∧
    s.Straight t [byteHome d] [bitC, bitZ, bitS, bitV, bitD, bitH] .data [] ∧ ∀ n, n ≠ d → t.rb n = s.rb n) ∧
  (∀ s d r, ∃ t, exec (.adcb d r) s = .next t ∧
    IsSum (s.rb d) (s.rb r) s.flagC (t.rb d) t ∧ t.flagC = sumCarry (s.rb d) (s.rb r) s.flagC ∧
    t.flagH = sumHalf 4 (s.rb d) (s.rb r) s.flagC ∧ t.flagD = false ∧
    s.Straight t [byteHome d] [bitC, bitZ, bitS, bitV, bitD, bitH] .data [] ∧ ∀ n, n ≠ d → t.rb n = s.rb n) ∧
  (∀ s d src, (Instr.subb d src).wf = true → ∃ t, exec (.subb d src) s = .next t ∧
    IsDiff (s.rb d) (Src.value s src) false (t.rb d) t ∧ t.flagC = diffBorrow (s.rb d) (Src.value s src) false ∧
    t.flagH = diffHalf 4 (s.rb d) (Src.value s src) false ∧ t.flagD = true ∧
    s.Straight t [byteHome d] [bitC, bitZ, bitS, bitV, bitD, bitH] .data [] ∧ ∀ n, n ≠ d → t.rb n = s.rb n) ∧
  (∀ s d r, ∃ t, exec (.sbcb d r) s = .next t ∧
    IsDiff (s.rb d) (s.rb r) s.flagC (t.rb d) t ∧ t.flagC = diffBorrow (s.rb d) (s.rb r) s.flagC ∧
    t.flagH = diffHalf 4 (s.rb d) (s.rb r) s.flagC ∧ t.flagD = true ∧
    s.Straight t [byteHome d] [bitC, bitZ, bitS, bitV, bitD, bitH] .data [] ∧ ∀ n, n ≠ d → t.rb n = s.rb n)

/-- R274 to R278: the compares write C, Z, S, V of the subtraction and nothing else, memory operand on the left. -/
def Obligations.ComparesWriteFlagsOnly : Prop :=
  (∀ s d src, (Instr.cp d src).wf = true → ∃ t, exec (.cp d src) s = .next t ∧
    IsCompare (s.rw d) (Src.value s src) t ∧ s.Straight t [] [bitC, bitZ, bitS, bitV] .data []) ∧
  (∀ s d src, (Instr.cpb d src).wf = true → ∃ t, exec (.cpb d src) s = .next t ∧
    IsCompare (s.rb d) (Src.value s src) t ∧ s.Straight t [] [bitC, bitZ, bitS, bitV] .data []) ∧
  (∀ s d src, (Instr.cpl d src).wf = true → ∃ t, exec (.cpl d src) s = .next t ∧
    IsCompare (s.rr d) (Src.value s src) t ∧ s.Straight t [] [bitC, bitZ, bitS, bitV] .data []) ∧
  (∀ s dst k, (Instr.cpImm dst k).wf = true → ∃ t, exec (.cpImm dst k) s = .next t ∧
    IsCompare (s.readWord .data (MemOp.ea s dst)) k t ∧ s.Straight t [] [bitC, bitZ, bitS, bitV] .data []) ∧
  (∀ s dst k, (Instr.cpbImm dst k).wf = true → ∃ t, exec (.cpbImm dst k) s = .next t ∧
    IsCompare (s.readByte .data (MemOp.ea s dst)) k t ∧ s.Straight t [] [bitC, bitZ, bitS, bitV] .data [])

/-- R274, corner case: after CP the condition codes compare Rd with the source, LT and the like signed, ULT and the like
unsigned. -/
def Obligations.ComparisonSetsTheConditions : Prop :=
  ∀ s t d src, (Instr.cp d src).wf = true → exec (.cp d src) s = .next t →
    (t.holds .eq = decide (s.rw d = Src.value s src)) ∧ (t.holds .ne = decide (s.rw d ≠ Src.value s src)) ∧
    (t.holds .lt = decide ((s.rw d).toInt < (Src.value s src).toInt)) ∧
    (t.holds .ge = decide ((Src.value s src).toInt ≤ (s.rw d).toInt)) ∧
    (t.holds .le = decide ((s.rw d).toInt ≤ (Src.value s src).toInt)) ∧
    (t.holds .gt = decide ((Src.value s src).toInt < (s.rw d).toInt)) ∧
    (t.holds .c = decide ((s.rw d).toNat < (Src.value s src).toNat)) ∧
    (t.holds .nc = decide ((Src.value s src).toNat ≤ (s.rw d).toNat)) ∧
    (t.holds .ule = decide ((s.rw d).toNat ≤ (Src.value s src).toNat)) ∧
    (t.holds .ugt = decide ((Src.value s src).toNat < (s.rw d).toNat))

/-- R279 to R282, `30_encoding.md` R123: INC and DEC by `n + 1`, C and D unchanged, H under `doc` only. -/
def Obligations.IncrementAndDecrement : Prop :=
  (∀ s dst n, (Instr.inc dst n).wf = true → ∃ t, exec (.inc dst n) s = .next t ∧
    IsSum (RegMem.value s .w dst) (BitVec.ofNat 16 (n.toNat + 1)) false (RegMem.after s t .w dst) t ∧
    (t.flagH = if s.docFlags then sumHalf 12 (RegMem.value s .w dst) (BitVec.ofNat 16 (n.toNat + 1)) false else s.flagH) ∧
    s.Straight t (RegMem.regs .w dst) [bitZ, bitS, bitV, bitH] .data (RegMem.bytes s .w dst)) ∧
  (∀ s dst n, (Instr.incb dst n).wf = true → ∃ t, exec (.incb dst n) s = .next t ∧
    IsSum (RegMem.value s .b dst) (BitVec.ofNat 8 (n.toNat + 1)) false (RegMem.after s t .b dst) t ∧
    (t.flagH = if s.docFlags then sumHalf 4 (RegMem.value s .b dst) (BitVec.ofNat 8 (n.toNat + 1)) false else s.flagH) ∧
    s.Straight t (RegMem.regs .b dst) [bitZ, bitS, bitV, bitH] .data (RegMem.bytes s .b dst) ∧
    ∀ m, dst ≠ .reg m → t.rb m = s.rb m) ∧
  (∀ s dst n, (Instr.dec dst n).wf = true → ∃ t, exec (.dec dst n) s = .next t ∧
    IsDiff (RegMem.value s .w dst) (BitVec.ofNat 16 (n.toNat + 1)) false (RegMem.after s t .w dst) t ∧
    (t.flagH = if s.docFlags then diffHalf 12 (RegMem.value s .w dst) (BitVec.ofNat 16 (n.toNat + 1)) false else s.flagH) ∧
    s.Straight t (RegMem.regs .w dst) [bitZ, bitS, bitV, bitH] .data (RegMem.bytes s .w dst)) ∧
  (∀ s dst n, (Instr.decb dst n).wf = true → ∃ t, exec (.decb dst n) s = .next t ∧
    IsDiff (RegMem.value s .b dst) (BitVec.ofNat 8 (n.toNat + 1)) false (RegMem.after s t .b dst) t ∧
    (t.flagH = if s.docFlags then diffHalf 4 (RegMem.value s .b dst) (BitVec.ofNat 8 (n.toNat + 1)) false else s.flagH) ∧
    s.Straight t (RegMem.regs .b dst) [bitZ, bitS, bitV, bitH] .data (RegMem.bytes s .b dst) ∧
    ∀ m, dst ≠ .reg m → t.rb m = s.rb m)

/-- R283 to R286 with R262, R263: NEG and COM. -/
def Obligations.NegateAndComplement : Prop :=
  (∀ s dst, (Instr.neg dst).wf = true → ∃ t, exec (.neg dst) s = .next t ∧
    RegMem.after s t .w dst = 0 - RegMem.value s .w dst ∧ t.flagC = decide (RegMem.value s .w dst ≠ 0) ∧
    t.flagV = decide (RegMem.value s .w dst = 0x8000) ∧ ZeroSign (0 - RegMem.value s .w dst) t ∧
    s.Straight t (RegMem.regs .w dst) [bitC, bitZ, bitS, bitV] .data (RegMem.bytes s .w dst)) ∧
  (∀ s dst, (Instr.negb dst).wf = true → ∃ t, exec (.negb dst) s = .next t ∧
    RegMem.after s t .b dst = 0 - RegMem.value s .b dst ∧ t.flagC = decide (RegMem.value s .b dst ≠ 0) ∧
    t.flagV = decide (RegMem.value s .b dst = 0x80) ∧ ZeroSign (0 - RegMem.value s .b dst) t ∧
    s.Straight t (RegMem.regs .b dst) [bitC, bitZ, bitS, bitV] .data (RegMem.bytes s .b dst) ∧
    ∀ n, dst ≠ .reg n → t.rb n = s.rb n) ∧
  (∀ s dst, (Instr.com dst).wf = true → ∃ t, exec (.com dst) s = .next t ∧
    RegMem.after s t .w dst = ~~~(RegMem.value s .w dst) ∧ ZeroSign (~~~(RegMem.value s .w dst)) t ∧
    (t.flagV = if s.docFlags then false else s.flagV) ∧
    s.Straight t (RegMem.regs .w dst) [bitZ, bitS, bitV] .data (RegMem.bytes s .w dst)) ∧
  (∀ s dst, (Instr.comb dst).wf = true → ∃ t, exec (.comb dst) s = .next t ∧
    RegMem.after s t .b dst = ~~~(RegMem.value s .b dst) ∧ ZeroSign (~~~(RegMem.value s .b dst)) t ∧
    (t.flagV = if s.docFlags then false else evenOnes (~~~(RegMem.value s .b dst))) ∧
    s.Straight t (RegMem.regs .b dst) [bitZ, bitS, bitV] .data (RegMem.bytes s .b dst) ∧
    ∀ n, dst ≠ .reg n → t.rb n = s.rb n)

/-- R287, R288: the signed product of the low half of the destination and the source. -/
def Obligations.MultiplyGivesTheSignedProduct : Prop :=
  (∀ s d src, (Instr.mult d src).wf = true → ∃ t, exec (.mult d src) s = .next t ∧
    (t.rr d).toInt = (s.rw (d + 1)).toInt * (Src.value s src).toInt ∧
    ProductFlags 16 ((s.rw (d + 1)).toInt * (Src.value s src).toInt) t ∧
    s.Straight t [d, d + 1] [bitC, bitZ, bitS, bitV] .data []) ∧
  (∀ s d src, (Instr.multl d src).wf = true → ∃ t, exec (.multl d src) s = .next t ∧
    (t.rq d).toInt = (s.rr (d + 2)).toInt * (Src.value s src).toInt ∧
    ProductFlags 32 ((s.rr (d + 2)).toInt * (Src.value s src).toInt) t ∧
    s.Straight t [d, d + 1, d + 2, d + 3] [bitC, bitZ, bitS, bitV] .data [])

/-- R289, R290, `60_exceptions.md` R606: when a quotient rounded toward zero exists and fits, DIV and DIVL write it and the
remainder; a zero divisor, or a quotient outside the signed range of the destination half, takes the
extended-instruction trap with no register and no flag changed before it. -/
def Obligations.DivideOrTrap : Prop :=
  (∀ s d src q m, (Instr.div d src).wf = true → IsQuotient (s.rr d).toInt (Src.value s src).toInt q m →
    -2 ^ 15 ≤ q → q < 2 ^ 15 → ∃ t, exec (.div d src) s = .next t ∧
      (t.rw (d + 1)).toInt = q ∧ (t.rw d).toInt = m ∧
      t.flagC = false ∧ t.flagZ = decide (q = 0) ∧ t.flagS = decide (q < 0) ∧ t.flagV = false ∧
      s.Straight t [d, d + 1] [bitC, bitZ, bitS, bitV] .data []) ∧
  (∀ s d src q m, (Instr.divl d src).wf = true → IsQuotient (s.rq d).toInt (Src.value s src).toInt q m →
    -2 ^ 31 ≤ q → q < 2 ^ 31 → ∃ t, exec (.divl d src) s = .next t ∧
      (t.rr (d + 2)).toInt = q ∧ (t.rr d).toInt = m ∧
      t.flagC = false ∧ t.flagZ = decide (q = 0) ∧ t.flagS = decide (q < 0) ∧ t.flagV = false ∧
      s.Straight t [d, d + 1, d + 2, d + 3] [bitC, bitZ, bitS, bitV] .data []) ∧
  (∀ s d src, (Instr.div d src).wf = true →
    ((Src.value s src).toInt = 0 ∨
      ∃ q m, IsQuotient (s.rr d).toInt (Src.value s src).toInt q m ∧ (q < -2 ^ 15 ∨ 2 ^ 15 ≤ q)) →
    TakesExtendedTrap (.div d src) s) ∧
  (∀ s d src, (Instr.divl d src).wf = true →
    ((Src.value s src).toInt = 0 ∨
      ∃ q m, IsQuotient (s.rq d).toInt (Src.value s src).toInt q m ∧ (q < -2 ^ 31 ∨ 2 ^ 31 ≤ q)) →
    TakesExtendedTrap (.divl d src) s)

/-- R291, R292, R293: the sign of the low half fills the high half. -/
def Obligations.SignExtensions : Prop :=
  (∀ s d, ∃ t, exec (.extsb d) s = .next t ∧ (t.rw d).toInt = ((s.rw d).extractLsb' 0 8).toInt ∧
    s.Straight t [d] [] .data []) ∧
  (∀ s d, (Instr.exts d).wf = true → ∃ t, exec (.exts d) s = .next t ∧ (t.rr d).toInt = (s.rw (d + 1)).toInt ∧
    s.Straight t [d] [] .data []) ∧
  (∀ s d, (Instr.extsl d).wf = true → ∃ t, exec (.extsl d) s = .next t ∧ (t.rq d).toInt = (s.rr (d + 2)).toInt ∧
    s.Straight t [d, d + 1] [] .data [])

/-- R294: DAB by its table of corrections, for every byte. -/
def Obligations.DecimalAdjust : Prop :=
  ∀ s d, ∃ t, exec (.dab d) s = .next t ∧
    (let a := (s.rb d).toNat
     let six := s.flagH || (!s.flagD && decide (9 < a % 16))
     let sixty := s.flagC || (!s.flagD && decide (0x99 < a))
     let corr := (if six then 6 else 0) + (if sixty then 0x60 else 0)
     (t.rb d).toNat = (if s.flagD then a + 256 - corr else a + corr) % 256 ∧ t.flagC = sixty) ∧
    ZeroSign (t.rb d) t ∧ s.Straight t [byteHome d] [bitC, bitZ, bitS] .data [] ∧ ∀ n, n ≠ d → t.rb n = s.rb n

/-! ## Logical, bit and test instructions (`42_logical_bit.md`) -/

/-- R321 to R329 with R320: AND, OR, XOR of words and bytes; TEST, TESTB, TESTL write the flags of the operand and nothing
else. -/
def Obligations.LogicalOperationsAndTests : Prop :=
  (∀ s d src, (Instr.and d src).wf = true → ∃ t, exec (.and d src) s = .next t ∧
    t.rw d = s.rw d &&& Src.value s src ∧ LogicFlagsOf s t .w (t.rw d) ∧
    s.Straight t [d] [bitC, bitZ, bitS, bitV] .data []) ∧
  (∀ s d src, (Instr.or d src).wf = true → ∃ t, exec (.or d src) s = .next t ∧
    t.rw d = s.rw d ||| Src.value s src ∧ LogicFlagsOf s t .w (t.rw d) ∧
    s.Straight t [d] [bitC, bitZ, bitS, bitV] .data []) ∧
  (∀ s d src, (Instr.xor d src).wf = true → ∃ t, exec (.xor d src) s = .next t ∧
    t.rw d = s.rw d ^^^ Src.value s src ∧ LogicFlagsOf s t .w (t.rw d) ∧
    s.Straight t [d] [bitC, bitZ, bitS, bitV] .data []) ∧
  (∀ s d src, (Instr.andb d src).wf = true → ∃ t, exec (.andb d src) s = .next t ∧
    t.rb d = s.rb d &&& Src.value s src ∧ LogicFlagsOf s t .b (t.rb d) ∧
    s.Straight t [byteHome d] [bitC, bitZ, bitS, bitV] .data [] ∧ ∀ n, n ≠ d → t.rb n = s.rb n) ∧
  (∀ s d src, (Instr.orb d src).wf = true → ∃ t, exec (.orb d src) s = .next t ∧
    t.rb d = s.rb d ||| Src.value s src ∧ LogicFlagsOf s t .b (t.rb d) ∧
    s.Straight t [byteHome d] [bitC, bitZ, bitS, bitV] .data [] ∧ ∀ n, n ≠ d → t.rb n = s.rb n) ∧
  (∀ s d src, (Instr.xorb d src).wf = true → ∃ t, exec (.xorb d src) s = .next t ∧
    t.rb d = s.rb d ^^^ Src.value s src ∧ LogicFlagsOf s t .b (t.rb d) ∧
    s.Straight t [byteHome d] [bitC, bitZ, bitS, bitV] .data [] ∧ ∀ n, n ≠ d → t.rb n = s.rb n) ∧
  (∀ s dst, (Instr.test dst).wf = true → ∃ t, exec (.test dst) s = .next t ∧
    LogicFlagsOf s t .w (RegMem.value s .w dst) ∧ s.Straight t [] [bitC, bitZ, bitS, bitV] .data []) ∧
  (∀ s dst, (Instr.testb dst).wf = true → ∃ t, exec (.testb dst) s = .next t ∧
    LogicFlagsOf s t .b (RegMem.value s .b dst) ∧ s.Straight t [] [bitC, bitZ, bitS, bitV] .data []) ∧
  (∀ s dst, (Instr.testl dst).wf = true → ∃ t, exec (.testl dst) s = .next t ∧
    LogicFlagsOf s t .l (RegMem.value s .l dst) ∧ s.Straight t [] [bitC, bitZ, bitS, bitV] .data [])

/-- R330 to R341: BIT writes Z as the complement of the bit; SET and RES change one bit of the operand, no flag, and nothing
else. The bit number is the field, or the low bits of the register Rs; byte forms use three bits of it. -/
def Obligations.BitInstructions : Prop :=
  (∀ s dst b, (Instr.bit dst b).wf = true → ∃ t, exec (.bit dst b) s = .next t ∧
    t.flagZ = !(RegMem.value s .w dst).getLsbD b.toNat ∧ s.Straight t [] [bitZ] .data []) ∧
  (∀ s dst b, (Instr.bitb dst b).wf = true → ∃ t, exec (.bitb dst b) s = .next t ∧
    t.flagZ = !(RegMem.value s .b dst).getLsbD (b.toNat % 8) ∧ s.Straight t [] [bitZ] .data []) ∧
  (∀ s d r, ∃ t, exec (.bitDyn d r) s = .next t ∧
    t.flagZ = !(s.rw d).getLsbD ((s.rw r).toNat % 16) ∧ s.Straight t [] [bitZ] .data []) ∧
  (∀ s d r, ∃ t, exec (.bitbDyn d r) s = .next t ∧
    t.flagZ = !(s.rb d).getLsbD ((s.rw r).toNat % 8) ∧ s.Straight t [] [bitZ] .data []) ∧
  (∀ s dst b, (Instr.set dst b).wf = true → ∃ t, exec (.set dst b) s = .next t ∧
    ReplacesBit (RegMem.value s .w dst) (RegMem.after s t .w dst) b.toNat true ∧
    s.Straight t (RegMem.regs .w dst) [] .data (RegMem.bytes s .w dst)) ∧
  (∀ s dst b, (Instr.setb dst b).wf = true → ∃ t, exec (.setb dst b) s = .next t ∧
    ReplacesBit (RegMem.value s .b dst) (RegMem.after s t .b dst) (b.toNat % 8) true ∧
    s.Straight t (RegMem.regs .b dst) [] .data (RegMem.bytes s .b dst) ∧ ∀ n, dst ≠ .reg n → t.rb n = s.rb n) ∧
  (∀ s d r, ∃ t, exec (.setDyn d r) s = .next t ∧
    ReplacesBit (s.rw d) (t.rw d) ((s.rw r).toNat % 16) true ∧ s.Straight t [d] [] .data []) ∧
  (∀ s d r, ∃ t, exec (.setbDyn d r) s = .next t ∧
    ReplacesBit (s.rb d) (t.rb d) ((s.rw r).toNat % 8) true ∧ s.Straight t [byteHome d] [] .data [] ∧
    ∀ n, n ≠ d → t.rb n = s.rb n) ∧
  (∀ s dst b, (Instr.res dst b).wf = true → ∃ t, exec (.res dst b) s = .next t ∧
    ReplacesBit (RegMem.value s .w dst) (RegMem.after s t .w dst) b.toNat false ∧
    s.Straight t (RegMem.regs .w dst) [] .data (RegMem.bytes s .w dst)) ∧
  (∀ s dst b, (Instr.resb dst b).wf = true → ∃ t, exec (.resb dst b) s = .next t ∧
    ReplacesBit (RegMem.value s .b dst) (RegMem.after s t .b dst) (b.toNat % 8) false ∧
    s.Straight t (RegMem.regs .b dst) [] .data (RegMem.bytes s .b dst) ∧ ∀ n, dst ≠ .reg n → t.rb n = s.rb n) ∧
  (∀ s d r, ∃ t, exec (.resDyn d r) s = .next t ∧
    ReplacesBit (s.rw d) (t.rw d) ((s.rw r).toNat % 16) false ∧ s.Straight t [d] [] .data []) ∧
  (∀ s d r, ∃ t, exec (.resbDyn d r) s = .next t ∧
    ReplacesBit (s.rb d) (t.rb d) ((s.rw r).toNat % 8) false ∧ s.Straight t [byteHome d] [] .data [] ∧
    ∀ n, n ≠ d → t.rb n = s.rb n)

/-- R342 to R345: TSET and TSETB copy the operand's sign to S and fill it with ones; TCC and TCCB set bit 0 when the
condition holds and change nothing when it does not. -/
def Obligations.TestAndSetAndTestCondition : Prop :=
  (∀ s dst, (Instr.tset dst).wf = true → ∃ t, exec (.tset dst) s = .next t ∧
    RegMem.after s t .w dst = 0xFFFF ∧ t.flagS = (RegMem.value s .w dst).getLsbD 15 ∧
    s.Straight t (RegMem.regs .w dst) [bitS] .data (RegMem.bytes s .w dst)) ∧
  (∀ s dst, (Instr.tsetb dst).wf = true → ∃ t, exec (.tsetb dst) s = .next t ∧
    RegMem.after s t .b dst = 0xFF ∧ t.flagS = (RegMem.value s .b dst).getLsbD 7 ∧
    s.Straight t (RegMem.regs .b dst) [bitS] .data (RegMem.bytes s .b dst) ∧ ∀ n, dst ≠ .reg n → t.rb n = s.rb n) ∧
  (∀ s cc d, ∃ t, exec (.tcc cc d) s = .next t ∧
    ReplacesBit (s.rw d) (t.rw d) 0 (s.holds cc || (s.rw d).getLsbD 0) ∧ s.Straight t [d] [] .data []) ∧
  (∀ s cc d, ∃ t, exec (.tccb cc d) s = .next t ∧
    ReplacesBit (s.rb d) (t.rb d) 0 (s.holds cc || (s.rb d).getLsbD 0) ∧ s.Straight t [byteHome d] [] .data [] ∧
    ∀ n, n ≠ d → t.rb n = s.rb n)

/-! ## Shifts and rotates (`43_shift_rotate.md`) -/

/-- R372 to R379 with R394: rotates by one or two bits, those through the carry as rotates of 17 or 9 bits. -/
def Obligations.Rotates : Prop :=
  (∀ s d twice, ∃ t, exec (.rl d twice) s = .next t ∧
    Rotated (s.rw d) (rotCount twice) (s.rw d).rotateLeft ((s.rw d).getLsbD (16 - rotCount twice)) (t.rw d) t ∧
    s.Straight t [d] [bitC, bitZ, bitS, bitV] .data []) ∧
  (∀ s d twice, ∃ t, exec (.rr d twice) s = .next t ∧
    Rotated (s.rw d) (rotCount twice) (s.rw d).rotateRight ((s.rw d).getLsbD (rotCount twice - 1)) (t.rw d) t ∧
    s.Straight t [d] [bitC, bitZ, bitS, bitV] .data []) ∧
  (∀ s d twice, ∃ t, exec (.rlc d twice) s = .next t ∧
    Rotated (s.rw d) (rotCount twice) (turnLeftCarry s.flagC (s.rw d))
      ((withCarry s.flagC (s.rw d)).rotateLeft (rotCount twice)).msb (t.rw d) t ∧
    s.Straight t [d] [bitC, bitZ, bitS, bitV] .data []) ∧
  (∀ s d twice, ∃ t, exec (.rrc d twice) s = .next t ∧
    Rotated (s.rw d) (rotCount twice) (turnRightCarry s.flagC (s.rw d))
      ((withCarry s.flagC (s.rw d)).rotateRight (rotCount twice)).msb (t.rw d) t ∧
    s.Straight t [d] [bitC, bitZ, bitS, bitV] .data []) ∧
  (∀ s d twice, ∃ t, exec (.rlb d twice) s = .next t ∧
    Rotated (s.rb d) (rotCount twice) (s.rb d).rotateLeft ((s.rb d).getLsbD (8 - rotCount twice)) (t.rb d) t ∧
    s.Straight t [byteHome d] [bitC, bitZ, bitS, bitV] .data [] ∧ ∀ n, n ≠ d → t.rb n = s.rb n) ∧
  (∀ s d twice, ∃ t, exec (.rrb d twice) s = .next t ∧
    Rotated (s.rb d) (rotCount twice) (s.rb d).rotateRight ((s.rb d).getLsbD (rotCount twice - 1)) (t.rb d) t ∧
    s.Straight t [byteHome d] [bitC, bitZ, bitS, bitV] .data [] ∧ ∀ n, n ≠ d → t.rb n = s.rb n) ∧
  (∀ s d twice, ∃ t, exec (.rlcb d twice) s = .next t ∧
    Rotated (s.rb d) (rotCount twice) (turnLeftCarry s.flagC (s.rb d))
      ((withCarry s.flagC (s.rb d)).rotateLeft (rotCount twice)).msb (t.rb d) t ∧
    s.Straight t [byteHome d] [bitC, bitZ, bitS, bitV] .data [] ∧ ∀ n, n ≠ d → t.rb n = s.rb n) ∧
  (∀ s d twice, ∃ t, exec (.rrcb d twice) s = .next t ∧
    Rotated (s.rb d) (rotCount twice) (turnRightCarry s.flagC (s.rb d))
      ((withCarry s.flagC (s.rb d)).rotateRight (rotCount twice)).msb (t.rb d) t ∧
    s.Straight t [byteHome d] [bitC, bitZ, bitS, bitV] .data [] ∧ ∀ n, n ≠ d → t.rb n = s.rb n)

/-- R380, R381, R382, R386, R387, R388 with R370, R371: the arithmetic shifts for every count in the valid range. -/
def Obligations.ArithmeticShifts : Prop :=
  ∀ (s : State) (d r : Reg) (count : Word),
    ShiftsArith .w (.slaSra d count) d count s ∧ ShiftsArith .b (.slabSrab d count) d count s ∧
    (d.toNat % 2 = 0 → ShiftsArith .l (.slalSral d count) d count s) ∧
    ShiftsArith .w (.sda d r) d (s.rw r) s ∧ ShiftsArith .b (.sdab d r) d (s.rw r) s ∧
    (d.toNat % 2 = 0 → ShiftsArith .l (.sdal d r) d (s.rw r) s)

/-- R383, R384, R385, R389, R390, R391 with R370, R371: the logical shifts for every count in the valid range; V is a
free value. -/
def Obligations.LogicalShifts : Prop :=
  ∀ (s : State) (d r : Reg) (count : Word),
    ShiftsLogic .w (.sllSrl d count) d count s ∧ ShiftsLogic .b (.sllbSrlb d count) d count s ∧
    (d.toNat % 2 = 0 → ShiftsLogic .l (.slllSrll d count) d count s) ∧
    ShiftsLogic .w (.sdl d r) d (s.rw r) s ∧ ShiftsLogic .b (.sdlb d r) d (s.rw r) s ∧
    (d.toNat % 2 = 0 → ShiftsLogic .l (.sdll d r) d (s.rw r) s)

/-- R370: a shift by any count, also one outside −w..w whose result and flags the spec leaves open, runs and changes
nothing but its register and C, Z, S, V. -/
def Obligations.ShiftsByAnyCountComplete : Prop :=
  ∀ (s : State) (d r : Reg) (count : Word),
    ShiftCompletes .w (.slaSra d count) d s ∧ ShiftCompletes .b (.slabSrab d count) d s ∧
    ShiftCompletes .w (.sllSrl d count) d s ∧ ShiftCompletes .b (.sllbSrlb d count) d s ∧
    ShiftCompletes .w (.sda d r) d s ∧ ShiftCompletes .b (.sdab d r) d s ∧
    ShiftCompletes .w (.sdl d r) d s ∧ ShiftCompletes .b (.sdlb d r) d s ∧
    (d.toNat % 2 = 0 → ShiftCompletes .l (.slalSral d count) d s ∧ ShiftCompletes .l (.slllSrll d count) d s ∧
      ShiftCompletes .l (.sdal d r) d s ∧ ShiftCompletes .l (.sdll d r) d s)

/-- R392, R393: the digit rotates, with distinct registers and with one register for both, where the link's write is the
last. -/
def Obligations.DigitRotates : Prop :=
  (∀ s l r, ∃ t, exec (.rldb l r) s = .next t ∧
    (l ≠ r → (t.rb r).toNat = (s.rb r).toNat % 16 * 16 + (s.rb l).toNat % 16) ∧
    (t.rb l).toNat = (s.rb l).toNat / 16 * 16 + (s.rb r).toNat / 16 ∧ ZeroSign (t.rb l) t ∧
    s.Straight t [byteHome l, byteHome r] [bitZ, bitS] .data [] ∧ ∀ n, n ≠ l → n ≠ r → t.rb n = s.rb n) ∧
  (∀ s l r, ∃ t, exec (.rrdb l r) s = .next t ∧
    (l ≠ r → (t.rb r).toNat = (s.rb l).toNat % 16 * 16 + (s.rb r).toNat / 16) ∧
    (t.rb l).toNat = (s.rb l).toNat / 16 * 16 + (s.rb r).toNat % 16 ∧ ZeroSign (t.rb l) t ∧
    s.Straight t [byteHome l, byteHome r] [bitZ, bitS] .data [] ∧ ∀ n, n ≠ l → n ≠ r → t.rb n = s.rb n)

/-! ## Control transfer (`44_control.md`) -/

/-- R401, R402, R406, R407 with R400: JP, JR, DJNZ, DBJNZ. -/
def Obligations.Jumps : Prop :=
  (∀ s cc dst, (Instr.jp cc dst).wf = true → ∃ t, exec (.jp cc dst) s = .next t ∧
    t.pc = (if s.holds cc then MemOp.ea s dst else s.pc) ∧ s.Frame t [] [] .data []) ∧
  (∀ s cc disp, ∃ t, exec (.jr cc disp) s = .next t ∧
    t.pc = (if s.holds cc then s.pc + BitVec.ofInt 16 (2 * disp.toInt) else s.pc) ∧ s.Frame t [] [] .data []) ∧
  (∀ s r disp, ∃ t, exec (.djnz r disp) s = .next t ∧ t.rw r = s.rw r - 1 ∧
    t.pc = (if t.rw r = 0 then s.pc else s.pc - BitVec.ofNat 16 (2 * disp.toNat)) ∧ s.Frame t [r] [] .data []) ∧
  (∀ s r disp, ∃ t, exec (.dbjnz r disp) s = .next t ∧ t.rb r = s.rb r - 1 ∧
    t.pc = (if t.rb r = 0 then s.pc else s.pc - BitVec.ofNat 16 (2 * disp.toNat)) ∧
    s.Frame t [byteHome r] [] .data [] ∧ ∀ n, n ≠ r → t.rb n = s.rb n)

/-- R403, R404, R405 with R400 and `20_memory.md` R87: CALL, CALR and RET on the stack of the current mode. -/
def Obligations.CallsAndReturns : Prop :=
  (∀ s dst, (Instr.call dst).wf = true → ∃ t, exec (.call dst) s = .next t ∧
    t.pc = MemOp.ea s dst ∧ t.rw 15 = s.rw 15 - 2 ∧ t.readWord .prog (s.rw 15 - 2) = s.pc ∧
    s.Frame t [15] [] .prog (accessBytes s.cfg .w (s.rw 15 - 2))) ∧
  (∀ s disp, ∃ t, exec (.calr disp) s = .next t ∧
    t.pc = s.pc - BitVec.ofInt 16 (2 * disp.toInt) ∧ t.rw 15 = s.rw 15 - 2 ∧ t.readWord .prog (s.rw 15 - 2) = s.pc ∧
    s.Frame t [15] [] .prog (accessBytes s.cfg .w (s.rw 15 - 2))) ∧
  (∀ s cc, ∃ t, exec (.ret cc) s = .next t ∧
    (s.holds cc = true → t.pc = s.readWord .prog (s.rw 15) ∧ t.rw 15 = s.rw 15 + 2 ∧ s.Frame t [15] [] .prog []) ∧
    (s.holds cc = false → t = s))

/-! ## System instructions (`45_system.md`) -/

/-- R430 to R433: NOP, HALT, DI, EI, the last three in system mode. -/
def Obligations.NopHaltAndInterruptMasks : Prop :=
  (∀ s, exec .nop s = .next s) ∧
  (∀ s, s.sysMode = true → exec .halt s = .next { s with halt := true }) ∧
  (∀ s v n, s.sysMode = true → ∃ t, exec (.di v n) s = .next t ∧
    t.vie = (v && s.vie) ∧ t.nvie = (n && s.nvie) ∧ s.Straight t [] [12, 11] .data []) ∧
  (∀ s v n, s.sysMode = true → ∃ t, exec (.ei v n) s = .next t ∧
    t.vie = (!v || s.vie) ∧ t.nvie = (!n || s.nvie) ∧ s.Straight t [] [12, 11] .data [])

/-- R434, R436, `60_exceptions.md` R635: in system mode LDPS loads FCW and PC from two words of DATA and changes nothing
else; IRET loads PC and FCW from the two words at SSP in PROG, adds 4 to SSP and changes nothing else. -/
def Obligations.LoadStatusAndReturnFromInterrupt : Prop :=
  (∀ s src, (Instr.ldps src).wf = true → s.sysMode = true →
    exec (.ldps src) s = .next { s with
      fcw := s.readWord .data (MemOp.ea s src), pc := s.readWord .data (MemOp.ea s src + 2) }) ∧
  (∀ s, s.sysMode = true → exec .iret s = .next { s with
      ssp := s.ssp + 4, pc := s.readWord .prog s.ssp, fcw := s.readWord .prog (s.ssp + 2) })

/-- R435, `60_exceptions.md` R604, R620: SC takes the system-call trap in either mode, the code as the identifier. -/
def Obligations.SystemCallEntersItsHandler : Prop :=
  ∀ s code, ∃ t, exec (.sc code) s = .next t ∧
    s.Entered t (s.psap + 0x0E) (s.psap + 0x10) (some (BitVec.ofNat 16 code.toNat)) ∧ s.SameLatches t

/-- R437, R438, R439, R442, R443: the flag instructions, in either mode. Mask bits 3 to 0 stand for C, Z, S, P/V. -/
def Obligations.FlagInstructions : Prop :=
  (∀ s mask, ∃ t, exec (.setflg mask) s = .next t ∧
    (∀ k, k < 4 → t.fcw.getLsbD (k + 4) = (mask.getLsbD k || s.fcw.getLsbD (k + 4))) ∧
    s.Straight t [] [bitC, bitZ, bitS, bitV] .data []) ∧
  (∀ s mask, ∃ t, exec (.resflg mask) s = .next t ∧
    (∀ k, k < 4 → t.fcw.getLsbD (k + 4) = (!mask.getLsbD k && s.fcw.getLsbD (k + 4))) ∧
    s.Straight t [] [bitC, bitZ, bitS, bitV] .data []) ∧
  (∀ s mask, ∃ t, exec (.comflg mask) s = .next t ∧
    (∀ k, k < 4 → t.fcw.getLsbD (k + 4) = (mask.getLsbD k ^^ s.fcw.getLsbD (k + 4))) ∧
    s.Straight t [] [bitC, bitZ, bitS, bitV] .data []) ∧
  (∀ s d, ∃ t, exec (.ldctlbRead d) s = .next t ∧ t.rb d = s.fcw.extractLsb' 0 8 ∧
    s.Straight t [byteHome d] [] .data [] ∧ ∀ n, n ≠ d → t.rb n = s.rb n) ∧
  (∀ s r, ∃ t, exec (.ldctlbWrite r) s = .next t ∧ t.fcw.extractLsb' 0 8 = s.rb r ∧
    s.Straight t [] [7, 6, 5, 4, 3, 2, 1, 0] .data [])

/-- R440, R441 with `10_state.md` R47, R48: in system mode LDCTL reads and writes FCW, the refresh register, PSAP and
NSP; bits 8:0 of a refresh read are a free value. -/
def Obligations.ControlRegisterMoves : Prop :=
  ∀ s d r, s.sysMode = true →
    (∃ t, exec (.ldctlRead d .fcw) s = .next t ∧ t.rw d = s.fcw ∧ s.Straight t [d] [] .data []) ∧
    (∃ t, exec (.ldctlRead d .refresh) s = .next t ∧ (t.rw d).extractLsb' 9 7 = s.refresh.extractLsb' 9 7 ∧
      s.Straight t [d] [] .data []) ∧
    (∃ t, exec (.ldctlRead d .psap) s = .next t ∧ t.rw d = s.psap ∧ s.Straight t [d] [] .data []) ∧
    (∃ t, exec (.ldctlRead d .nsp) s = .next t ∧ t.rw d = s.nsp ∧ s.Straight t [d] [] .data []) ∧
    exec (.ldctlWrite .fcw r) s = .next { s with fcw := s.rw r } ∧
    exec (.ldctlWrite .refresh r) s = .next { s with refresh := s.rw r } ∧
    exec (.ldctlWrite .psap r) s = .next { s with
      psap := if s.cfg.psapMask = .all then s.rw r else s.rw r &&& 0xFF00 } ∧
    exec (.ldctlWrite .nsp r) s = .next { s with nsp := s.rw r }

/-- R455 to R458, R460: `exec` refuses exactly the multi-micro instructions in system mode and the EPU words with
FCW.EPA = 1; that "refuse" of the rules is a refusal under these two names is the model's reading (log 13, log 14). It
never faults: with `60_exceptions.md` R608 no access can fail (log 24), and, unlike `10_state.md` R51, the model gives an
unwritten register a value (log 1, the model's choice). -/
def Obligations.StopsAreExactlyTheSpecs : Prop :=
  (∀ (i : Instr) (s : State), (∀ f, exec i s ≠ .fault f) ∧
    (exec i s = .refused .multiMicro ↔ Instr.isMultiMicro i = true ∧ s.sysMode = true) ∧
    (exec i s = .refused .epuAbsent ↔ (∃ page op, i = .epu page op) ∧ s.epa = true) ∧
    (∀ m, exec i s ≠ .refused (.notModelled m))) ∧
  (∀ (s : State) (d : Reg), s.sysMode = true →
    exec .mset s = .refused .multiMicro ∧ exec .mres s = .refused .multiMicro ∧
    exec .mbit s = .refused .multiMicro ∧ exec (.mreq d) s = .refused .multiMicro)

/-! ## Input and output (`46_io.md`) -/

/-- R471 to R482 with R470: in system mode each instruction makes its one port access and writes its one register. That the
value answered is `Config.freeIo` at the step's index (log 4), and that the access is noted in `io` (log 5), are the
model's own choices: R85 says only that the collaborator answers any value. -/
def Obligations.InputAndOutput : Prop :=
  ∀ (s : State) (d r : Reg) (port : Word), s.sysMode = true →
    (r ≠ 0 → Inputs .w .std (.inInd d r) d (s.rw r) s ∧ Inputs .b .std (.inbInd d r) d (s.rw r) s) ∧
    Inputs .w .std (.inDir d port) d port s ∧ Inputs .b .std (.inbDir d port) d port s ∧
    Inputs .w .special (.sin d port) d port s ∧ Inputs .b .special (.sinb d port) d port s ∧
    (d ≠ 0 → Outputs .w .std (.outInd d r) (s.rw d) r s ∧ Outputs .b .std (.outbInd d r) (s.rw d) r s) ∧
    Outputs .w .std (.outDir port r) port r s ∧ Outputs .b .std (.outbDir port r) port r s ∧
    Outputs .w .special (.sout port r) port r s ∧ Outputs .b .special (.soutb port r) port r s

/-! ## Block instructions (`47_block.md`, `48_block_io.md`) -/

/-- R505 to R512 with R500, R502, R504: one step of LDI, LDIR, LDD, LDDR and the byte forms. -/
def Obligations.BlockTransferIteration : Prop :=
  ∀ (s : State) (d src r : Reg), d ≠ 0 → src ≠ 0 →
    MovesOne .w false false d src r (.ldi d src r) s ∧ MovesOne .w false true d src r (.ldir d src r) s ∧
    MovesOne .w true false d src r (.ldd d src r) s ∧ MovesOne .w true true d src r (.lddr d src r) s ∧
    MovesOne .b false false d src r (.ldib d src r) s ∧ MovesOne .b false true d src r (.ldirb d src r) s ∧
    MovesOne .b true false d src r (.lddb d src r) s ∧ MovesOne .b true true d src r (.lddrb d src r) s

/-- R513 to R528 with R500, R502, R504: one step of CPI, CPIR, CPD, CPDR and the byte forms, register minus memory; of
CPSI, CPSIR, CPSD, CPSDR and the byte forms, destination memory minus source memory. -/
def Obligations.BlockCompareIteration : Prop :=
  (∀ (s : State) (d src r : Reg) (cc : Cc), src ≠ 0 →
    let w := s.readWord .data (s.rw src)
    let b := s.readByte .data (s.rw src)
    ComparesOne (s.rw d) w [src] 2 false r cc (.cpi d src r cc) s ∧
    ComparesOne (s.rw d) w [src] 2 true r cc (.cpir d src r cc) s ∧
    ComparesOne (s.rw d) w [src] (-2) false r cc (.cpd d src r cc) s ∧
    ComparesOne (s.rw d) w [src] (-2) true r cc (.cpdr d src r cc) s ∧
    ComparesOne (s.rb d) b [src] 1 false r cc (.cpib d src r cc) s ∧
    ComparesOne (s.rb d) b [src] 1 true r cc (.cpirb d src r cc) s ∧
    ComparesOne (s.rb d) b [src] (-1) false r cc (.cpdb d src r cc) s ∧
    ComparesOne (s.rb d) b [src] (-1) true r cc (.cpdrb d src r cc) s) ∧
  (∀ (s : State) (d src r : Reg) (cc : Cc), d ≠ 0 → src ≠ 0 →
    let w := s.readWord .data (s.rw src)
    let wd := s.readWord .data (s.rw d)
    let b := s.readByte .data (s.rw src)
    let bd := s.readByte .data (s.rw d)
    ComparesOne wd w [src, d] 2 false r cc (.cpsi d src r cc) s ∧
    ComparesOne wd w [src, d] 2 true r cc (.cpsir d src r cc) s ∧
    ComparesOne wd w [src, d] (-2) false r cc (.cpsd d src r cc) s ∧
    ComparesOne wd w [src, d] (-2) true r cc (.cpsdr d src r cc) s ∧
    ComparesOne bd b [src, d] 1 false r cc (.cpsib d src r cc) s ∧
    ComparesOne bd b [src, d] 1 true r cc (.cpsirb d src r cc) s ∧
    ComparesOne bd b [src, d] (-1) false r cc (.cpsdb d src r cc) s ∧
    ComparesOne bd b [src, d] (-1) true r cc (.cpsdrb d src r cc) s)

/-- R561 to R568 with R500, R502, R504: one step of the translate and the translate-and-test instructions. -/
def Obligations.TranslateIteration : Prop :=
  ∀ (s : State) (d table r : Reg), d ≠ 0 → table ≠ 0 →
    TranslatesOne false false d table r (.trib d table r) s ∧ TranslatesOne false true d table r (.trirb d table r) s ∧
    TranslatesOne true false d table r (.trdb d table r) s ∧ TranslatesOne true true d table r (.trdrb d table r) s ∧
    TranslateTestsOne false false d table r (.trtib d table r) s ∧
    TranslateTestsOne false true d table r (.trtirb d table r) s ∧
    TranslateTestsOne true false d table r (.trtdb d table r) s ∧
    TranslateTestsOne true true d table r (.trtdrb d table r) s

/-- R529 to R560 with R500, R502, R504: one step of each block input and of each block output, in system mode. That the
value answered is `Config.freeIo` at the step's index (log 4), and that the access is noted in `io` (log 5), are the
model's own choices. -/
def Obligations.BlockInputAndOutputIteration : Prop :=
  (∀ (s : State) (d src r : Reg), d ≠ 0 → src ≠ 0 → s.sysMode = true →
    InputsOne .w .std false false d src r (.ini d src r) s ∧ InputsOne .w .std false true d src r (.inir d src r) s ∧
    InputsOne .w .std true false d src r (.ind d src r) s ∧ InputsOne .w .std true true d src r (.indr d src r) s ∧
    InputsOne .b .std false false d src r (.inib d src r) s ∧ InputsOne .b .std false true d src r (.inirb d src r) s ∧
    InputsOne .b .std true false d src r (.indb d src r) s ∧ InputsOne .b .std true true d src r (.indrb d src r) s ∧
    InputsOne .w .special false false d src r (.sini d src r) s ∧
    InputsOne .w .special false true d src r (.sinir d src r) s ∧
    InputsOne .w .special true false d src r (.sind d src r) s ∧
    InputsOne .w .special true true d src r (.sindr d src r) s ∧
    InputsOne .b .special false false d src r (.sinib d src r) s ∧
    InputsOne .b .special false true d src r (.sinirb d src r) s ∧
    InputsOne .b .special true false d src r (.sindb d src r) s ∧
    InputsOne .b .special true true d src r (.sindrb d src r) s) ∧
  (∀ (s : State) (d src r : Reg), d ≠ 0 → src ≠ 0 → s.sysMode = true →
    OutputsOne .w .std false false d src r (.outi d src r) s ∧ OutputsOne .w .std false true d src r (.otir d src r) s ∧
    OutputsOne .w .std true false d src r (.outd d src r) s ∧ OutputsOne .w .std true true d src r (.otdr d src r) s ∧
    OutputsOne .b .std false false d src r (.outib d src r) s ∧
    OutputsOne .b .std false true d src r (.otirb d src r) s ∧
    OutputsOne .b .std true false d src r (.outdb d src r) s ∧
    OutputsOne .b .std true true d src r (.otdrb d src r) s ∧
    OutputsOne .w .special false false d src r (.souti d src r) s ∧
    OutputsOne .w .special false true d src r (.sotir d src r) s ∧
    OutputsOne .w .special true false d src r (.soutd d src r) s ∧
    OutputsOne .w .special true true d src r (.sotdr d src r) s ∧
    OutputsOne .b .special false false d src r (.soutib d src r) s ∧
    OutputsOne .b .special false true d src r (.sotirb d src r) s ∧
    OutputsOne .b .special true false d src r (.soutdb d src r) s ∧
    OutputsOne .b .special true true d src r (.sotdrb d src r) s)

/-! ## Exceptions, interrupts, privilege (`60_exceptions.md`) -/

/-- R603, R613, `30_encoding.md` R116, R118, `45_system.md` R460: a 0 in an address, base, index, pointer or port
register field, an odd long-register field, a quad field that is no multiple of 4, and an EPU word with FCW.EPA = 0
take the extended-instruction trap, in either mode, before anything else. -/
def Obligations.DecodeErrorsTrap : Prop :=
  (∀ (i : Instr) (s : State), i.wf = false → TakesExtendedTrap i s) ∧
  (∀ (page : EpuPage) (op : Byte) (s : State), s.epa = false → TakesExtendedTrap (.epu page op) s)

/-- R605, R613, R640, `45_system.md` R444: every well-formed privileged instruction takes the privileged-instruction
trap in normal mode, with none of its effect. -/
def Obligations.PrivilegedInstructionsTrapInNormalMode : Prop :=
  ∀ (i : Instr) (s : State), Instr.isPrivileged i = true → i.wf = true → s.sysMode = false → TakesPrivilegedTrap i s

/-- R601, R602, R620 to R625: what the entry of each trap and interrupt kind does. -/
def Obligations.TrapEntrySequence : Prop :=
  ∀ (s : State) (code : Byte),
    (s.Entered (s.takeTrap .ext) (s.psap + 0x06) (s.psap + 0x08) none ∧ s.SameLatches (s.takeTrap .ext)) ∧
    (s.Entered (s.takeTrap .priv) (s.psap + 0x0A) (s.psap + 0x0C) none ∧ s.SameLatches (s.takeTrap .priv)) ∧
    (s.Entered (s.takeTrap (.sysCall code)) (s.psap + 0x0E) (s.psap + 0x10) (some (code.zeroExtend 16)) ∧
      s.SameLatches (s.takeTrap (.sysCall code))) ∧
    (s.Entered (s.takeTrap .nmi) (s.psap + 0x16) (s.psap + 0x18) none ∧
      (s.takeTrap .nmi).nmiPending = false ∧ (s.takeTrap .nmi).viReq = s.viReq ∧
      (s.takeTrap .nmi).nviReq = s.nviReq) ∧
    (s.Entered (s.takeTrap .nvi) (s.psap + 0x1A) (s.psap + 0x1C) none ∧
      (s.takeTrap .nvi).nviReq = false ∧ (s.takeTrap .nvi).viReq = s.viReq ∧
      (s.takeTrap .nvi).nmiPending = s.nmiPending) ∧
    (s.Entered (s.takeTrap .vi) (s.psap + 0x1E)
        (s.psap + 0x20 + if s.cfg.viIndexed then BitVec.ofNat 16 (2 * s.viVector.toNat) else 0)
        (some (s.viVector.zeroExtend 16)) ∧
      (s.takeTrap .vi).viReq = false ∧ (s.takeTrap .vi).nviReq = s.nviReq ∧
      (s.takeTrap .vi).nmiPending = s.nmiPending)

/-- R611, R630, R631: at a boundary NMI comes before an enabled VI, and that before an enabled NVI; the step that accepts
one is its entry and nothing else, whether the core was halted or not. A halted core that can accept none idles and changes
only the cycle counter. The model's own choices around that, in `State.tick`: the draw counter `draws`, which both kinds of
step move on (log 6), the count of cycles as a free value (log 7), and the list `bus`, to which the accesses of the entry
are appended and an idle step adds none (log 19). -/
def Obligations.BoundaryAcceptsOrIdles : Prop :=
  (∀ s : State,
    (s.nmiPending = true → step s = .next ((s.takeTrap .nmi).tick s.stepBus)) ∧
    (s.nmiPending = false → s.viReq = true → s.fcw.getLsbD 12 = true → step s = .next ((s.takeTrap .vi).tick s.stepBus)) ∧
    (s.nmiPending = false → (s.viReq = false ∨ s.fcw.getLsbD 12 = false) → s.nviReq = true → s.fcw.getLsbD 11 = true →
      step s = .next ((s.takeTrap .nvi).tick s.stepBus))) ∧
  (∀ s : State, s.halt = true → s.nmiPending = false → (s.viReq = false ∨ s.fcw.getLsbD 12 = false) →
    (s.nviReq = false ∨ s.fcw.getLsbD 11 = false) →
    ∃ c d, step s = .next { s with cycles := c, draws := d })

/-- R610: what each input call does to the request latches, and that it changes nothing else. -/
def Obligations.InputLinesSetTheRequests : Prop :=
  ∀ (s : State) (v : Byte),
    s.setInputLine .nmi true = { s with nmiPending := s.nmiPending || !s.nmiLine, nmiLine := true } ∧
    s.setInputLine .nmi false = { s with nmiLine := false } ∧
    (∀ a, s.setInputLine .nvi a = { s with nviReq := a }) ∧ (∀ a, s.setInputLine .vi a = { s with viReq := a }) ∧
    s.setIrqVector v = { s with viVector := v }

/-- R641: no instruction takes the core from normal to system mode except by the entry of a trap, and LDCTLB and every
other instruction keep FCW bits 15:8 in normal mode. -/
def Obligations.NormalModeIsLeftByTrapsOnly : Prop :=
  ∀ (i : Instr) (s t : State), s.sysMode = false → exec i s = .next t →
    (∀ k, 8 ≤ k → t.fcw.getLsbD k = s.fcw.getLsbD k) ∨
      t = s.takeTrap .ext ∨ t = s.takeTrap .priv ∨ ∃ code, i = .sc code ∧ t = s.takeTrap (.sysCall code)

/-! ## Steps, reset and the host loop -/

/-- `10_state.md` R40, `47_block.md` R501, `70_reset_and_hazards.md` R721: when no interrupt is acceptable, the core is
not halted and the words at the PC decode to `i`, the step runs `exec i` with the PC after the instruction; a block
iteration that goes on leaves the PC at the instruction's own address; then the cycles are counted and the
bus accesses noted. The draw counter, the count of cycles as a free value and the list `bus` that `tick` moves on are the
model's choices (log 6, log 7, log 19). -/
def Obligations.StepRunsTheDecodedInstruction : Prop :=
  ∀ (s : State) (i : Instr) (rest : List Byte), s.acceptable = none → s.halt = false → s.NotResetWord →
    decode (bytesOf [s.readWord .prog s.pc, s.readWord .prog (s.pc + 2), s.readWord .prog (s.pc + 4)]) = .ok i rest →
    (∀ t, exec i (s.setPc (s.pc + 2 * BitVec.ofNat 16 i.words)) = .next t →
      step s = .next ((if t.reexec then { t with pc := s.pc, reexec := false } else t).tick s.stepBus)) ∧
    (∀ r, exec i (s.setPc (s.pc + 2 * BitVec.ofNat 16 i.words)) = .refused r → step s = .refused r)

/-- Every step keeps the invariant (canonical memories, no half-done block iteration at a boundary, PSAP within its mask)
and the implementation parameters, from every state that meets it. -/
def Obligations.EveryStepKeepsTheInvariant : Prop :=
  ∀ s t : State, s.Inv → step s = .next t → t.Inv ∧ t.cfg = s.cfg

/-- The state after reset meets the invariant. -/
def Obligations.ResetMeetsTheInvariant : Prop := State.reset.Inv

/-- `70_reset_and_hazards.md` R700, `10_state.md` R50: what `reset()` does to any state, and, with R450 of `45_system.md`,
that a RESET word does the same in system mode and traps in normal mode. The value 0 of the registers is the model's
choice (log 1, log 12), and this statement does not say it. That a word `P_RESET_OPCODE` matches is RESET before the table
is consulted, and one word long, is the model's choice where the match covers a word of the table (log 11). That the reads of
the vector, of kind DATA by `20_memory.md` R88 and R100, are appended to the list `bus` is the model's choice (log 19), as are the draw counter and the count of cycles that the
step's `tick` moves on (log 6, log 7). -/
def Obligations.ResetSequence : Prop :=
  (∀ s : State, ∃ t, s.hostReset = t ∧ t.psap = 0 ∧ t.fcw = s.readWord .prog 0x0002 ∧
    t.pc = s.readWord .prog 0x0004 ∧ t.refresh = 0 ∧ t.nmiPending = false ∧ t.nviReq = false ∧ t.viReq = false ∧
    t.halt = false ∧ t.reexec = false ∧ t.nmiLine = s.nmiLine ∧ t.viVector = s.viVector ∧ t.mi = s.mi ∧
    t.cycles = s.cycles ∧ t.stop = s.stop ∧ t.prog = s.prog ∧ t.data = s.data ∧ t.io = s.io ∧ t.cfg = s.cfg ∧
    t.bus = s.bus ++ resetReads) ∧
  (∀ s : State, s.acceptable = none → s.halt = false → ¬ s.NotResetWord →
    (s.sysMode = true → step s = .next (State.tick { s.hostReset with bus := s.bus } s.stepBus)) ∧
    (s.sysMode = false → ∃ t, step s = .next (t.tick s.stepBus) ∧
      (s.setPc (s.pc + 2)).Entered t (s.psap + 0x0A) (s.psap + 0x0C) none ∧ s.SameLatches t))

/-- `70_reset_and_hazards.md` R721: `run` returns only because the stop flag was set, the budget is used, or the core is
halted with no acceptable interrupt. -/
def Obligations.RunReturnsForAStatedReason : Prop :=
  ∀ (s t : State) (budget used : Nat), s.run budget = .next (used, t) →
    (s.stop = true ∧ used = 0 ∧ t = { s with stop := false }) ∨ budget ≤ used ∨
      (t.halt = true ∧ t.acceptable = none)

/-! ## Bus accesses -/

/-- `20_memory.md` R100, `70_reset_and_hazards.md` R722, with R86, R87, R88, R91 and R92: every step notes the accesses it
makes, in order and with their kinds; only bytes that one of them writes change, and those to ports are the port record's.
FETCH are the words of the instruction, before anything else; then come the accesses its rule names, of kind STACK on the
stack side of R88 and DATA otherwise; an entry pushes two or three words and reads its vector. A step that accepts an
interrupt makes those of its entry (`60_exceptions.md` R611), a halted one that accepts none makes none (R630), a word the
decoder rejects is fetched before the entry (R621), and a RESET word before the reset vector (`45_system.md` R450). That the
accesses are kept in `bus`, and a port access is of kind DATA, are the model's reading (log 19); that a word
`P_RESET_OPCODE` matches is RESET and one word long is its choice (log 11). -/
def Obligations.BusAccessesAreRecorded : Prop :=
  (∀ s t : State, step s = .next t → s.Recorded t s.stepBus) ∧
  (∀ (s : State) (i : Instr) (rest : List Byte), s.acceptable = none → s.halt = false → s.NotResetWord →
    decode (bytesOf [s.readWord .prog s.pc, s.readWord .prog (s.pc + 2), s.readWord .prog (s.pc + 4)]) = .ok i rest →
    s.stepBus = ((List.range i.words).map fun k => fetchWord s.cfg (s.pc + BitVec.ofNat 16 (2 * k))) ++
      Instr.bus (s.setPc (s.pc + 2 * BitVec.ofNat 16 i.words)) i) ∧
  (∀ (s : State) (k : Trap), s.acceptable = some k → s.stepBus = s.trapBus k) ∧
  (∀ s : State, s.acceptable = none → s.halt = true → s.stepBus = []) ∧
  (∀ s : State, s.acceptable = none → s.halt = false → s.NotResetWord →
    decodeWords (s.readWord .prog s.pc) (s.readWord .prog (s.pc + 2)) (s.readWord .prog (s.pc + 4)) = none →
    s.stepBus = fetchWord s.cfg s.pc :: s.trapBus .ext) ∧
  (∀ s : State, s.acceptable = none → s.halt = false → ¬ s.NotResetWord →
    s.stepBus = fetchWord s.cfg s.pc :: (if s.sysMode then resetReads else s.trapBus .priv)) ∧
  (∀ s : State, s.OperandAccesses ∧ s.StackAccesses ∧ s.PortAccesses ∧ s.BlockAccesses ∧ s.NoAccesses ∧
    s.EntryAccesses) ∧
  (∀ (s : State) (k : Trap), s.trapBus k =
    stackWord s.cfg true (s.ssp - 2) :: stackWord s.cfg true (s.ssp - 4) ::
      ((if (k.ident s).isSome then [stackWord s.cfg true (s.ssp - 6)] else []) ++
      [vectorWord s.cfg (s.vectorFcwAddr k), vectorWord s.cfg (s.vectorPcAddr k)]))
end

