-- ==== Sys2Proof/Laws/State.lean ====
section
/-! SUPPORT. Laws/State.lean: what each plain update of the state writes and keeps, one lemma per field per update.
The lemmas are `rfl`; later proofs cite them instead of unfolding a record update. -/
namespace Sys2Proof.Machine

variable (s : State)

/-! ### `writeFcw` -/

@[simp] theorem State.writeFcw_regs (v : Word) : (s.writeFcw v).regs = s.regs := rfl
@[simp] theorem State.writeFcw_ssp (v : Word) : (s.writeFcw v).ssp = s.ssp := rfl
@[simp] theorem State.writeFcw_nsp (v : Word) : (s.writeFcw v).nsp = s.nsp := rfl
@[simp] theorem State.writeFcw_pc (v : Word) : (s.writeFcw v).pc = s.pc := rfl
@[simp] theorem State.writeFcw_fcw (v : Word) : (s.writeFcw v).fcw = v := rfl
@[simp] theorem State.writeFcw_psap (v : Word) : (s.writeFcw v).psap = s.psap := rfl
@[simp] theorem State.writeFcw_refresh (v : Word) : (s.writeFcw v).refresh = s.refresh := rfl
@[simp] theorem State.writeFcw_nviReq (v : Word) : (s.writeFcw v).nviReq = s.nviReq := rfl
@[simp] theorem State.writeFcw_viReq (v : Word) : (s.writeFcw v).viReq = s.viReq := rfl
@[simp] theorem State.writeFcw_viVector (v : Word) : (s.writeFcw v).viVector = s.viVector := rfl
@[simp] theorem State.writeFcw_nmiLine (v : Word) : (s.writeFcw v).nmiLine = s.nmiLine := rfl
@[simp] theorem State.writeFcw_nmiPending (v : Word) : (s.writeFcw v).nmiPending = s.nmiPending := rfl
@[simp] theorem State.writeFcw_halt (v : Word) : (s.writeFcw v).halt = s.halt := rfl
@[simp] theorem State.writeFcw_mi (v : Word) : (s.writeFcw v).mi = s.mi := rfl
@[simp] theorem State.writeFcw_cycles (v : Word) : (s.writeFcw v).cycles = s.cycles := rfl
@[simp] theorem State.writeFcw_reexec (v : Word) : (s.writeFcw v).reexec = s.reexec := rfl
@[simp] theorem State.writeFcw_stop (v : Word) : (s.writeFcw v).stop = s.stop := rfl
@[simp] theorem State.writeFcw_prog (v : Word) : (s.writeFcw v).prog = s.prog := rfl
@[simp] theorem State.writeFcw_data (v : Word) : (s.writeFcw v).data = s.data := rfl
@[simp] theorem State.writeFcw_io (v : Word) : (s.writeFcw v).io = s.io := rfl
@[simp] theorem State.writeFcw_bus (v : Word) : (s.writeFcw v).bus = s.bus := rfl
@[simp] theorem State.writeFcw_draws (v : Word) : (s.writeFcw v).draws = s.draws := rfl
@[simp] theorem State.writeFcw_cfg (v : Word) : (s.writeFcw v).cfg = s.cfg := rfl

/-! ### `setPc` -/

@[simp] theorem State.setPc_regs (a : Word) : (s.setPc a).regs = s.regs := rfl
@[simp] theorem State.setPc_ssp (a : Word) : (s.setPc a).ssp = s.ssp := rfl
@[simp] theorem State.setPc_nsp (a : Word) : (s.setPc a).nsp = s.nsp := rfl
@[simp] theorem State.setPc_pc (a : Word) : (s.setPc a).pc = a := rfl
@[simp] theorem State.setPc_fcw (a : Word) : (s.setPc a).fcw = s.fcw := rfl
@[simp] theorem State.setPc_psap (a : Word) : (s.setPc a).psap = s.psap := rfl
@[simp] theorem State.setPc_refresh (a : Word) : (s.setPc a).refresh = s.refresh := rfl
@[simp] theorem State.setPc_nviReq (a : Word) : (s.setPc a).nviReq = s.nviReq := rfl
@[simp] theorem State.setPc_viReq (a : Word) : (s.setPc a).viReq = s.viReq := rfl
@[simp] theorem State.setPc_viVector (a : Word) : (s.setPc a).viVector = s.viVector := rfl
@[simp] theorem State.setPc_nmiLine (a : Word) : (s.setPc a).nmiLine = s.nmiLine := rfl
@[simp] theorem State.setPc_nmiPending (a : Word) : (s.setPc a).nmiPending = s.nmiPending := rfl
@[simp] theorem State.setPc_halt (a : Word) : (s.setPc a).halt = s.halt := rfl
@[simp] theorem State.setPc_mi (a : Word) : (s.setPc a).mi = s.mi := rfl
@[simp] theorem State.setPc_cycles (a : Word) : (s.setPc a).cycles = s.cycles := rfl
@[simp] theorem State.setPc_reexec (a : Word) : (s.setPc a).reexec = s.reexec := rfl
@[simp] theorem State.setPc_stop (a : Word) : (s.setPc a).stop = s.stop := rfl
@[simp] theorem State.setPc_prog (a : Word) : (s.setPc a).prog = s.prog := rfl
@[simp] theorem State.setPc_data (a : Word) : (s.setPc a).data = s.data := rfl
@[simp] theorem State.setPc_io (a : Word) : (s.setPc a).io = s.io := rfl
@[simp] theorem State.setPc_bus (a : Word) : (s.setPc a).bus = s.bus := rfl
@[simp] theorem State.setPc_draws (a : Word) : (s.setPc a).draws = s.draws := rfl
@[simp] theorem State.setPc_cfg (a : Word) : (s.setPc a).cfg = s.cfg := rfl

/-! ### `advance` -/

@[simp] theorem State.advance_regs (k : Nat) : (s.advance k).regs = s.regs := rfl
@[simp] theorem State.advance_ssp (k : Nat) : (s.advance k).ssp = s.ssp := rfl
@[simp] theorem State.advance_nsp (k : Nat) : (s.advance k).nsp = s.nsp := rfl
@[simp] theorem State.advance_pc (k : Nat) : (s.advance k).pc = s.pc + 2 * BitVec.ofNat 16 k := rfl
@[simp] theorem State.advance_fcw (k : Nat) : (s.advance k).fcw = s.fcw := rfl
@[simp] theorem State.advance_psap (k : Nat) : (s.advance k).psap = s.psap := rfl
@[simp] theorem State.advance_refresh (k : Nat) : (s.advance k).refresh = s.refresh := rfl
@[simp] theorem State.advance_nviReq (k : Nat) : (s.advance k).nviReq = s.nviReq := rfl
@[simp] theorem State.advance_viReq (k : Nat) : (s.advance k).viReq = s.viReq := rfl
@[simp] theorem State.advance_viVector (k : Nat) : (s.advance k).viVector = s.viVector := rfl
@[simp] theorem State.advance_nmiLine (k : Nat) : (s.advance k).nmiLine = s.nmiLine := rfl
@[simp] theorem State.advance_nmiPending (k : Nat) : (s.advance k).nmiPending = s.nmiPending := rfl
@[simp] theorem State.advance_halt (k : Nat) : (s.advance k).halt = s.halt := rfl
@[simp] theorem State.advance_mi (k : Nat) : (s.advance k).mi = s.mi := rfl
@[simp] theorem State.advance_cycles (k : Nat) : (s.advance k).cycles = s.cycles := rfl
@[simp] theorem State.advance_reexec (k : Nat) : (s.advance k).reexec = s.reexec := rfl
@[simp] theorem State.advance_stop (k : Nat) : (s.advance k).stop = s.stop := rfl
@[simp] theorem State.advance_prog (k : Nat) : (s.advance k).prog = s.prog := rfl
@[simp] theorem State.advance_data (k : Nat) : (s.advance k).data = s.data := rfl
@[simp] theorem State.advance_io (k : Nat) : (s.advance k).io = s.io := rfl
@[simp] theorem State.advance_bus (k : Nat) : (s.advance k).bus = s.bus := rfl
@[simp] theorem State.advance_draws (k : Nat) : (s.advance k).draws = s.draws := rfl
@[simp] theorem State.advance_cfg (k : Nat) : (s.advance k).cfg = s.cfg := rfl

/-! ### `setFlags` -/

@[simp] theorem State.setFlags_regs (f : FlagWrite) : (s.setFlags f).regs = s.regs := rfl
@[simp] theorem State.setFlags_ssp (f : FlagWrite) : (s.setFlags f).ssp = s.ssp := rfl
@[simp] theorem State.setFlags_nsp (f : FlagWrite) : (s.setFlags f).nsp = s.nsp := rfl
@[simp] theorem State.setFlags_pc (f : FlagWrite) : (s.setFlags f).pc = s.pc := rfl
@[simp] theorem State.setFlags_fcw (f : FlagWrite) : (s.setFlags f).fcw = f.apply s.fcw := rfl
@[simp] theorem State.setFlags_psap (f : FlagWrite) : (s.setFlags f).psap = s.psap := rfl
@[simp] theorem State.setFlags_refresh (f : FlagWrite) : (s.setFlags f).refresh = s.refresh := rfl
@[simp] theorem State.setFlags_nviReq (f : FlagWrite) : (s.setFlags f).nviReq = s.nviReq := rfl
@[simp] theorem State.setFlags_viReq (f : FlagWrite) : (s.setFlags f).viReq = s.viReq := rfl
@[simp] theorem State.setFlags_viVector (f : FlagWrite) : (s.setFlags f).viVector = s.viVector := rfl
@[simp] theorem State.setFlags_nmiLine (f : FlagWrite) : (s.setFlags f).nmiLine = s.nmiLine := rfl
@[simp] theorem State.setFlags_nmiPending (f : FlagWrite) : (s.setFlags f).nmiPending = s.nmiPending := rfl
@[simp] theorem State.setFlags_halt (f : FlagWrite) : (s.setFlags f).halt = s.halt := rfl
@[simp] theorem State.setFlags_mi (f : FlagWrite) : (s.setFlags f).mi = s.mi := rfl
@[simp] theorem State.setFlags_cycles (f : FlagWrite) : (s.setFlags f).cycles = s.cycles := rfl
@[simp] theorem State.setFlags_reexec (f : FlagWrite) : (s.setFlags f).reexec = s.reexec := rfl
@[simp] theorem State.setFlags_stop (f : FlagWrite) : (s.setFlags f).stop = s.stop := rfl
@[simp] theorem State.setFlags_prog (f : FlagWrite) : (s.setFlags f).prog = s.prog := rfl
@[simp] theorem State.setFlags_data (f : FlagWrite) : (s.setFlags f).data = s.data := rfl
@[simp] theorem State.setFlags_io (f : FlagWrite) : (s.setFlags f).io = s.io := rfl
@[simp] theorem State.setFlags_bus (f : FlagWrite) : (s.setFlags f).bus = s.bus := rfl
@[simp] theorem State.setFlags_draws (f : FlagWrite) : (s.setFlags f).draws = s.draws := rfl
@[simp] theorem State.setFlags_cfg (f : FlagWrite) : (s.setFlags f).cfg = s.cfg := rfl

/-! ### `noteRead` -/

@[simp] theorem State.noteRead_regs (z : Size) (ios : IoSpace) (p : Word) : (s.noteRead z ios p).regs = s.regs := rfl
@[simp] theorem State.noteRead_ssp (z : Size) (ios : IoSpace) (p : Word) : (s.noteRead z ios p).ssp = s.ssp := rfl
@[simp] theorem State.noteRead_nsp (z : Size) (ios : IoSpace) (p : Word) : (s.noteRead z ios p).nsp = s.nsp := rfl
@[simp] theorem State.noteRead_pc (z : Size) (ios : IoSpace) (p : Word) : (s.noteRead z ios p).pc = s.pc := rfl
@[simp] theorem State.noteRead_fcw (z : Size) (ios : IoSpace) (p : Word) : (s.noteRead z ios p).fcw = s.fcw := rfl
@[simp] theorem State.noteRead_psap (z : Size) (ios : IoSpace) (p : Word) : (s.noteRead z ios p).psap = s.psap := rfl
@[simp] theorem State.noteRead_refresh (z : Size) (ios : IoSpace) (p : Word) : (s.noteRead z ios p).refresh = s.refresh := rfl
@[simp] theorem State.noteRead_nviReq (z : Size) (ios : IoSpace) (p : Word) : (s.noteRead z ios p).nviReq = s.nviReq := rfl
@[simp] theorem State.noteRead_viReq (z : Size) (ios : IoSpace) (p : Word) : (s.noteRead z ios p).viReq = s.viReq := rfl
@[simp] theorem State.noteRead_viVector (z : Size) (ios : IoSpace) (p : Word) : (s.noteRead z ios p).viVector = s.viVector := rfl
@[simp] theorem State.noteRead_nmiLine (z : Size) (ios : IoSpace) (p : Word) : (s.noteRead z ios p).nmiLine = s.nmiLine := rfl
@[simp] theorem State.noteRead_nmiPending (z : Size) (ios : IoSpace) (p : Word) : (s.noteRead z ios p).nmiPending = s.nmiPending := rfl
@[simp] theorem State.noteRead_halt (z : Size) (ios : IoSpace) (p : Word) : (s.noteRead z ios p).halt = s.halt := rfl
@[simp] theorem State.noteRead_mi (z : Size) (ios : IoSpace) (p : Word) : (s.noteRead z ios p).mi = s.mi := rfl
@[simp] theorem State.noteRead_cycles (z : Size) (ios : IoSpace) (p : Word) : (s.noteRead z ios p).cycles = s.cycles := rfl
@[simp] theorem State.noteRead_reexec (z : Size) (ios : IoSpace) (p : Word) : (s.noteRead z ios p).reexec = s.reexec := rfl
@[simp] theorem State.noteRead_stop (z : Size) (ios : IoSpace) (p : Word) : (s.noteRead z ios p).stop = s.stop := rfl
@[simp] theorem State.noteRead_prog (z : Size) (ios : IoSpace) (p : Word) : (s.noteRead z ios p).prog = s.prog := rfl
@[simp] theorem State.noteRead_data (z : Size) (ios : IoSpace) (p : Word) : (s.noteRead z ios p).data = s.data := rfl
@[simp] theorem State.noteRead_io (z : Size) (ios : IoSpace) (p : Word) : (s.noteRead z ios p).io = s.io ++ [{ space := ios, write := false, size := z, port := p, value := s.portValue z ios p }] := rfl
@[simp] theorem State.noteRead_bus (z : Size) (ios : IoSpace) (p : Word) : (s.noteRead z ios p).bus = s.bus := rfl
@[simp] theorem State.noteRead_draws (z : Size) (ios : IoSpace) (p : Word) : (s.noteRead z ios p).draws = s.draws := rfl
@[simp] theorem State.noteRead_cfg (z : Size) (ios : IoSpace) (p : Word) : (s.noteRead z ios p).cfg = s.cfg := rfl

/-! ### `ioWrite` -/

@[simp] theorem State.ioWrite_regs (z : Size) (ios : IoSpace) (p : Word) (v : z.Val) : (s.ioWrite z ios p v).regs = s.regs := rfl
@[simp] theorem State.ioWrite_ssp (z : Size) (ios : IoSpace) (p : Word) (v : z.Val) : (s.ioWrite z ios p v).ssp = s.ssp := rfl
@[simp] theorem State.ioWrite_nsp (z : Size) (ios : IoSpace) (p : Word) (v : z.Val) : (s.ioWrite z ios p v).nsp = s.nsp := rfl
@[simp] theorem State.ioWrite_pc (z : Size) (ios : IoSpace) (p : Word) (v : z.Val) : (s.ioWrite z ios p v).pc = s.pc := rfl
@[simp] theorem State.ioWrite_fcw (z : Size) (ios : IoSpace) (p : Word) (v : z.Val) : (s.ioWrite z ios p v).fcw = s.fcw := rfl
@[simp] theorem State.ioWrite_psap (z : Size) (ios : IoSpace) (p : Word) (v : z.Val) : (s.ioWrite z ios p v).psap = s.psap := rfl
@[simp] theorem State.ioWrite_refresh (z : Size) (ios : IoSpace) (p : Word) (v : z.Val) : (s.ioWrite z ios p v).refresh = s.refresh := rfl
@[simp] theorem State.ioWrite_nviReq (z : Size) (ios : IoSpace) (p : Word) (v : z.Val) : (s.ioWrite z ios p v).nviReq = s.nviReq := rfl
@[simp] theorem State.ioWrite_viReq (z : Size) (ios : IoSpace) (p : Word) (v : z.Val) : (s.ioWrite z ios p v).viReq = s.viReq := rfl
@[simp] theorem State.ioWrite_viVector (z : Size) (ios : IoSpace) (p : Word) (v : z.Val) : (s.ioWrite z ios p v).viVector = s.viVector := rfl
@[simp] theorem State.ioWrite_nmiLine (z : Size) (ios : IoSpace) (p : Word) (v : z.Val) : (s.ioWrite z ios p v).nmiLine = s.nmiLine := rfl
@[simp] theorem State.ioWrite_nmiPending (z : Size) (ios : IoSpace) (p : Word) (v : z.Val) : (s.ioWrite z ios p v).nmiPending = s.nmiPending := rfl
@[simp] theorem State.ioWrite_halt (z : Size) (ios : IoSpace) (p : Word) (v : z.Val) : (s.ioWrite z ios p v).halt = s.halt := rfl
@[simp] theorem State.ioWrite_mi (z : Size) (ios : IoSpace) (p : Word) (v : z.Val) : (s.ioWrite z ios p v).mi = s.mi := rfl
@[simp] theorem State.ioWrite_cycles (z : Size) (ios : IoSpace) (p : Word) (v : z.Val) : (s.ioWrite z ios p v).cycles = s.cycles := rfl
@[simp] theorem State.ioWrite_reexec (z : Size) (ios : IoSpace) (p : Word) (v : z.Val) : (s.ioWrite z ios p v).reexec = s.reexec := rfl
@[simp] theorem State.ioWrite_stop (z : Size) (ios : IoSpace) (p : Word) (v : z.Val) : (s.ioWrite z ios p v).stop = s.stop := rfl
@[simp] theorem State.ioWrite_prog (z : Size) (ios : IoSpace) (p : Word) (v : z.Val) : (s.ioWrite z ios p v).prog = s.prog := rfl
@[simp] theorem State.ioWrite_data (z : Size) (ios : IoSpace) (p : Word) (v : z.Val) : (s.ioWrite z ios p v).data = s.data := rfl
@[simp] theorem State.ioWrite_io (z : Size) (ios : IoSpace) (p : Word) (v : z.Val) : (s.ioWrite z ios p v).io = s.io ++ [{ space := ios, write := true, size := z, port := p, value := v }] := rfl
@[simp] theorem State.ioWrite_bus (z : Size) (ios : IoSpace) (p : Word) (v : z.Val) : (s.ioWrite z ios p v).bus = s.bus := rfl
@[simp] theorem State.ioWrite_draws (z : Size) (ios : IoSpace) (p : Word) (v : z.Val) : (s.ioWrite z ios p v).draws = s.draws := rfl
@[simp] theorem State.ioWrite_cfg (z : Size) (ios : IoSpace) (p : Word) (v : z.Val) : (s.ioWrite z ios p v).cfg = s.cfg := rfl

/-! ### `tick` -/

@[simp] theorem State.tick_regs (acc : List BusAccess) : (s.tick acc).regs = s.regs := rfl
@[simp] theorem State.tick_ssp (acc : List BusAccess) : (s.tick acc).ssp = s.ssp := rfl
@[simp] theorem State.tick_nsp (acc : List BusAccess) : (s.tick acc).nsp = s.nsp := rfl
@[simp] theorem State.tick_pc (acc : List BusAccess) : (s.tick acc).pc = s.pc := rfl
@[simp] theorem State.tick_fcw (acc : List BusAccess) : (s.tick acc).fcw = s.fcw := rfl
@[simp] theorem State.tick_psap (acc : List BusAccess) : (s.tick acc).psap = s.psap := rfl
@[simp] theorem State.tick_refresh (acc : List BusAccess) : (s.tick acc).refresh = s.refresh := rfl
@[simp] theorem State.tick_nviReq (acc : List BusAccess) : (s.tick acc).nviReq = s.nviReq := rfl
@[simp] theorem State.tick_viReq (acc : List BusAccess) : (s.tick acc).viReq = s.viReq := rfl
@[simp] theorem State.tick_viVector (acc : List BusAccess) : (s.tick acc).viVector = s.viVector := rfl
@[simp] theorem State.tick_nmiLine (acc : List BusAccess) : (s.tick acc).nmiLine = s.nmiLine := rfl
@[simp] theorem State.tick_nmiPending (acc : List BusAccess) : (s.tick acc).nmiPending = s.nmiPending := rfl
@[simp] theorem State.tick_halt (acc : List BusAccess) : (s.tick acc).halt = s.halt := rfl
@[simp] theorem State.tick_mi (acc : List BusAccess) : (s.tick acc).mi = s.mi := rfl
@[simp] theorem State.tick_cycles (acc : List BusAccess) : (s.tick acc).cycles = s.cycles + BitVec.ofNat 64 s.stepCycles := rfl
@[simp] theorem State.tick_reexec (acc : List BusAccess) : (s.tick acc).reexec = s.reexec := rfl
@[simp] theorem State.tick_stop (acc : List BusAccess) : (s.tick acc).stop = s.stop := rfl
@[simp] theorem State.tick_prog (acc : List BusAccess) : (s.tick acc).prog = s.prog := rfl
@[simp] theorem State.tick_data (acc : List BusAccess) : (s.tick acc).data = s.data := rfl
@[simp] theorem State.tick_io (acc : List BusAccess) : (s.tick acc).io = s.io := rfl
@[simp] theorem State.tick_bus (acc : List BusAccess) : (s.tick acc).bus = s.bus ++ acc := rfl
@[simp] theorem State.tick_draws (acc : List BusAccess) : (s.tick acc).draws = s.draws + 1 := rfl
@[simp] theorem State.tick_cfg (acc : List BusAccess) : (s.tick acc).cfg = s.cfg := rfl

/-! ### `loadVector` -/

@[simp] theorem State.loadVector_regs (t : Trap) : (s.loadVector t).regs = s.regs := rfl
@[simp] theorem State.loadVector_ssp (t : Trap) : (s.loadVector t).ssp = s.ssp := rfl
@[simp] theorem State.loadVector_nsp (t : Trap) : (s.loadVector t).nsp = s.nsp := rfl
@[simp] theorem State.loadVector_pc (t : Trap) : (s.loadVector t).pc = s.readWord .prog (s.vectorPcAddr t) := rfl
@[simp] theorem State.loadVector_fcw (t : Trap) : (s.loadVector t).fcw = s.readWord .prog (s.vectorFcwAddr t) := rfl
@[simp] theorem State.loadVector_psap (t : Trap) : (s.loadVector t).psap = s.psap := rfl
@[simp] theorem State.loadVector_refresh (t : Trap) : (s.loadVector t).refresh = s.refresh := rfl
@[simp] theorem State.loadVector_nviReq (t : Trap) : (s.loadVector t).nviReq = s.nviReq := rfl
@[simp] theorem State.loadVector_viReq (t : Trap) : (s.loadVector t).viReq = s.viReq := rfl
@[simp] theorem State.loadVector_viVector (t : Trap) : (s.loadVector t).viVector = s.viVector := rfl
@[simp] theorem State.loadVector_nmiLine (t : Trap) : (s.loadVector t).nmiLine = s.nmiLine := rfl
@[simp] theorem State.loadVector_nmiPending (t : Trap) : (s.loadVector t).nmiPending = s.nmiPending := rfl
@[simp] theorem State.loadVector_halt (t : Trap) : (s.loadVector t).halt = false := rfl
@[simp] theorem State.loadVector_mi (t : Trap) : (s.loadVector t).mi = s.mi := rfl
@[simp] theorem State.loadVector_cycles (t : Trap) : (s.loadVector t).cycles = s.cycles := rfl
@[simp] theorem State.loadVector_reexec (t : Trap) : (s.loadVector t).reexec = s.reexec := rfl
@[simp] theorem State.loadVector_stop (t : Trap) : (s.loadVector t).stop = s.stop := rfl
@[simp] theorem State.loadVector_prog (t : Trap) : (s.loadVector t).prog = s.prog := rfl
@[simp] theorem State.loadVector_data (t : Trap) : (s.loadVector t).data = s.data := rfl
@[simp] theorem State.loadVector_io (t : Trap) : (s.loadVector t).io = s.io := rfl
@[simp] theorem State.loadVector_bus (t : Trap) : (s.loadVector t).bus = s.bus := rfl
@[simp] theorem State.loadVector_draws (t : Trap) : (s.loadVector t).draws = s.draws := rfl
@[simp] theorem State.loadVector_cfg (t : Trap) : (s.loadVector t).cfg = s.cfg := rfl

/-! ### `resetSequence` -/

@[simp] theorem State.resetSequence_regs : (s.resetSequence).regs = Vector.replicate 15 0 := rfl
@[simp] theorem State.resetSequence_ssp : (s.resetSequence).ssp = 0 := rfl
@[simp] theorem State.resetSequence_nsp : (s.resetSequence).nsp = 0 := rfl
@[simp] theorem State.resetSequence_pc : (s.resetSequence).pc = s.readWord .prog 0x0004 := rfl
@[simp] theorem State.resetSequence_fcw : (s.resetSequence).fcw = s.readWord .prog 0x0002 := rfl
@[simp] theorem State.resetSequence_psap : (s.resetSequence).psap = 0 := rfl
@[simp] theorem State.resetSequence_refresh : (s.resetSequence).refresh = 0 := rfl
@[simp] theorem State.resetSequence_nviReq : (s.resetSequence).nviReq = false := rfl
@[simp] theorem State.resetSequence_viReq : (s.resetSequence).viReq = false := rfl
@[simp] theorem State.resetSequence_viVector : (s.resetSequence).viVector = s.viVector := rfl
@[simp] theorem State.resetSequence_nmiLine : (s.resetSequence).nmiLine = s.nmiLine := rfl
@[simp] theorem State.resetSequence_nmiPending : (s.resetSequence).nmiPending = false := rfl
@[simp] theorem State.resetSequence_halt : (s.resetSequence).halt = false := rfl
@[simp] theorem State.resetSequence_mi : (s.resetSequence).mi = s.mi := rfl
@[simp] theorem State.resetSequence_cycles : (s.resetSequence).cycles = s.cycles := rfl
@[simp] theorem State.resetSequence_reexec : (s.resetSequence).reexec = false := rfl
@[simp] theorem State.resetSequence_stop : (s.resetSequence).stop = s.stop := rfl
@[simp] theorem State.resetSequence_prog : (s.resetSequence).prog = s.prog := rfl
@[simp] theorem State.resetSequence_data : (s.resetSequence).data = s.data := rfl
@[simp] theorem State.resetSequence_io : (s.resetSequence).io = s.io := rfl
@[simp] theorem State.resetSequence_bus : (s.resetSequence).bus = s.bus := rfl
@[simp] theorem State.resetSequence_draws : (s.resetSequence).draws = s.draws := rfl
@[simp] theorem State.resetSequence_cfg : (s.resetSequence).cfg = s.cfg := rfl

end Sys2Proof.Machine
end

