-- ==== Sys2Proof/Laws/Fields.lean ====
section
/-! SUPPORT. Laws/Fields.lean: the fields that the register and the memory operations keep, one lemma per field per
operation, so that a later proof never unfolds them. -/
namespace Sys2Proof.Machine

variable (s : State)

/-! ### `setSp` -/

@[simp] theorem State.setSp_pc (v : Word) : (s.setSp v).pc = s.pc := by unfold State.setSp; split <;> rfl
@[simp] theorem State.setSp_fcw (v : Word) : (s.setSp v).fcw = s.fcw := by unfold State.setSp; split <;> rfl
@[simp] theorem State.setSp_psap (v : Word) : (s.setSp v).psap = s.psap := by unfold State.setSp; split <;> rfl
@[simp] theorem State.setSp_refresh (v : Word) : (s.setSp v).refresh = s.refresh := by unfold State.setSp; split <;> rfl
@[simp] theorem State.setSp_nviReq (v : Word) : (s.setSp v).nviReq = s.nviReq := by unfold State.setSp; split <;> rfl
@[simp] theorem State.setSp_viReq (v : Word) : (s.setSp v).viReq = s.viReq := by unfold State.setSp; split <;> rfl
@[simp] theorem State.setSp_viVector (v : Word) : (s.setSp v).viVector = s.viVector := by unfold State.setSp; split <;> rfl
@[simp] theorem State.setSp_nmiLine (v : Word) : (s.setSp v).nmiLine = s.nmiLine := by unfold State.setSp; split <;> rfl
@[simp] theorem State.setSp_nmiPending (v : Word) : (s.setSp v).nmiPending = s.nmiPending := by unfold State.setSp; split <;> rfl
@[simp] theorem State.setSp_halt (v : Word) : (s.setSp v).halt = s.halt := by unfold State.setSp; split <;> rfl
@[simp] theorem State.setSp_mi (v : Word) : (s.setSp v).mi = s.mi := by unfold State.setSp; split <;> rfl
@[simp] theorem State.setSp_cycles (v : Word) : (s.setSp v).cycles = s.cycles := by unfold State.setSp; split <;> rfl
@[simp] theorem State.setSp_reexec (v : Word) : (s.setSp v).reexec = s.reexec := by unfold State.setSp; split <;> rfl
@[simp] theorem State.setSp_stop (v : Word) : (s.setSp v).stop = s.stop := by unfold State.setSp; split <;> rfl
@[simp] theorem State.setSp_prog (v : Word) : (s.setSp v).prog = s.prog := by unfold State.setSp; split <;> rfl
@[simp] theorem State.setSp_data (v : Word) : (s.setSp v).data = s.data := by unfold State.setSp; split <;> rfl
@[simp] theorem State.setSp_io (v : Word) : (s.setSp v).io = s.io := by unfold State.setSp; split <;> rfl
@[simp] theorem State.setSp_bus (v : Word) : (s.setSp v).bus = s.bus := by unfold State.setSp; split <;> rfl
@[simp] theorem State.setSp_draws (v : Word) : (s.setSp v).draws = s.draws := by unfold State.setSp; split <;> rfl
@[simp] theorem State.setSp_cfg (v : Word) : (s.setSp v).cfg = s.cfg := by unfold State.setSp; split <;> rfl

/-! ### `setRw` -/

@[simp] theorem State.setRw_pc (n : Reg) (v : Word) : (s.setRw n v).pc = s.pc := by unfold State.setRw; split <;> simp
@[simp] theorem State.setRw_fcw (n : Reg) (v : Word) : (s.setRw n v).fcw = s.fcw := by unfold State.setRw; split <;> simp
@[simp] theorem State.setRw_psap (n : Reg) (v : Word) : (s.setRw n v).psap = s.psap := by unfold State.setRw; split <;> simp
@[simp] theorem State.setRw_refresh (n : Reg) (v : Word) : (s.setRw n v).refresh = s.refresh := by unfold State.setRw; split <;> simp
@[simp] theorem State.setRw_nviReq (n : Reg) (v : Word) : (s.setRw n v).nviReq = s.nviReq := by unfold State.setRw; split <;> simp
@[simp] theorem State.setRw_viReq (n : Reg) (v : Word) : (s.setRw n v).viReq = s.viReq := by unfold State.setRw; split <;> simp
@[simp] theorem State.setRw_viVector (n : Reg) (v : Word) : (s.setRw n v).viVector = s.viVector := by unfold State.setRw; split <;> simp
@[simp] theorem State.setRw_nmiLine (n : Reg) (v : Word) : (s.setRw n v).nmiLine = s.nmiLine := by unfold State.setRw; split <;> simp
@[simp] theorem State.setRw_nmiPending (n : Reg) (v : Word) : (s.setRw n v).nmiPending = s.nmiPending := by unfold State.setRw; split <;> simp
@[simp] theorem State.setRw_halt (n : Reg) (v : Word) : (s.setRw n v).halt = s.halt := by unfold State.setRw; split <;> simp
@[simp] theorem State.setRw_mi (n : Reg) (v : Word) : (s.setRw n v).mi = s.mi := by unfold State.setRw; split <;> simp
@[simp] theorem State.setRw_cycles (n : Reg) (v : Word) : (s.setRw n v).cycles = s.cycles := by unfold State.setRw; split <;> simp
@[simp] theorem State.setRw_reexec (n : Reg) (v : Word) : (s.setRw n v).reexec = s.reexec := by unfold State.setRw; split <;> simp
@[simp] theorem State.setRw_stop (n : Reg) (v : Word) : (s.setRw n v).stop = s.stop := by unfold State.setRw; split <;> simp
@[simp] theorem State.setRw_prog (n : Reg) (v : Word) : (s.setRw n v).prog = s.prog := by unfold State.setRw; split <;> simp
@[simp] theorem State.setRw_data (n : Reg) (v : Word) : (s.setRw n v).data = s.data := by unfold State.setRw; split <;> simp
@[simp] theorem State.setRw_io (n : Reg) (v : Word) : (s.setRw n v).io = s.io := by unfold State.setRw; split <;> simp
@[simp] theorem State.setRw_bus (n : Reg) (v : Word) : (s.setRw n v).bus = s.bus := by unfold State.setRw; split <;> simp
@[simp] theorem State.setRw_draws (n : Reg) (v : Word) : (s.setRw n v).draws = s.draws := by unfold State.setRw; split <;> simp
@[simp] theorem State.setRw_cfg (n : Reg) (v : Word) : (s.setRw n v).cfg = s.cfg := by unfold State.setRw; split <;> simp

/-! ### `setRb` -/

@[simp] theorem State.setRb_pc (n : Reg) (v : Byte) : (s.setRb n v).pc = s.pc := by simp [State.setRb]
@[simp] theorem State.setRb_fcw (n : Reg) (v : Byte) : (s.setRb n v).fcw = s.fcw := by simp [State.setRb]
@[simp] theorem State.setRb_psap (n : Reg) (v : Byte) : (s.setRb n v).psap = s.psap := by simp [State.setRb]
@[simp] theorem State.setRb_refresh (n : Reg) (v : Byte) : (s.setRb n v).refresh = s.refresh := by simp [State.setRb]
@[simp] theorem State.setRb_nviReq (n : Reg) (v : Byte) : (s.setRb n v).nviReq = s.nviReq := by simp [State.setRb]
@[simp] theorem State.setRb_viReq (n : Reg) (v : Byte) : (s.setRb n v).viReq = s.viReq := by simp [State.setRb]
@[simp] theorem State.setRb_viVector (n : Reg) (v : Byte) : (s.setRb n v).viVector = s.viVector := by simp [State.setRb]
@[simp] theorem State.setRb_nmiLine (n : Reg) (v : Byte) : (s.setRb n v).nmiLine = s.nmiLine := by simp [State.setRb]
@[simp] theorem State.setRb_nmiPending (n : Reg) (v : Byte) : (s.setRb n v).nmiPending = s.nmiPending := by simp [State.setRb]
@[simp] theorem State.setRb_halt (n : Reg) (v : Byte) : (s.setRb n v).halt = s.halt := by simp [State.setRb]
@[simp] theorem State.setRb_mi (n : Reg) (v : Byte) : (s.setRb n v).mi = s.mi := by simp [State.setRb]
@[simp] theorem State.setRb_cycles (n : Reg) (v : Byte) : (s.setRb n v).cycles = s.cycles := by simp [State.setRb]
@[simp] theorem State.setRb_reexec (n : Reg) (v : Byte) : (s.setRb n v).reexec = s.reexec := by simp [State.setRb]
@[simp] theorem State.setRb_stop (n : Reg) (v : Byte) : (s.setRb n v).stop = s.stop := by simp [State.setRb]
@[simp] theorem State.setRb_prog (n : Reg) (v : Byte) : (s.setRb n v).prog = s.prog := by simp [State.setRb]
@[simp] theorem State.setRb_data (n : Reg) (v : Byte) : (s.setRb n v).data = s.data := by simp [State.setRb]
@[simp] theorem State.setRb_io (n : Reg) (v : Byte) : (s.setRb n v).io = s.io := by simp [State.setRb]
@[simp] theorem State.setRb_bus (n : Reg) (v : Byte) : (s.setRb n v).bus = s.bus := by simp [State.setRb]
@[simp] theorem State.setRb_draws (n : Reg) (v : Byte) : (s.setRb n v).draws = s.draws := by simp [State.setRb]
@[simp] theorem State.setRb_cfg (n : Reg) (v : Byte) : (s.setRb n v).cfg = s.cfg := by simp [State.setRb]

/-! ### `setRr` -/

@[simp] theorem State.setRr_pc (n : Reg) (v : Long) : (s.setRr n v).pc = s.pc := by simp [State.setRr]
@[simp] theorem State.setRr_fcw (n : Reg) (v : Long) : (s.setRr n v).fcw = s.fcw := by simp [State.setRr]
@[simp] theorem State.setRr_psap (n : Reg) (v : Long) : (s.setRr n v).psap = s.psap := by simp [State.setRr]
@[simp] theorem State.setRr_refresh (n : Reg) (v : Long) : (s.setRr n v).refresh = s.refresh := by simp [State.setRr]
@[simp] theorem State.setRr_nviReq (n : Reg) (v : Long) : (s.setRr n v).nviReq = s.nviReq := by simp [State.setRr]
@[simp] theorem State.setRr_viReq (n : Reg) (v : Long) : (s.setRr n v).viReq = s.viReq := by simp [State.setRr]
@[simp] theorem State.setRr_viVector (n : Reg) (v : Long) : (s.setRr n v).viVector = s.viVector := by simp [State.setRr]
@[simp] theorem State.setRr_nmiLine (n : Reg) (v : Long) : (s.setRr n v).nmiLine = s.nmiLine := by simp [State.setRr]
@[simp] theorem State.setRr_nmiPending (n : Reg) (v : Long) : (s.setRr n v).nmiPending = s.nmiPending := by simp [State.setRr]
@[simp] theorem State.setRr_halt (n : Reg) (v : Long) : (s.setRr n v).halt = s.halt := by simp [State.setRr]
@[simp] theorem State.setRr_mi (n : Reg) (v : Long) : (s.setRr n v).mi = s.mi := by simp [State.setRr]
@[simp] theorem State.setRr_cycles (n : Reg) (v : Long) : (s.setRr n v).cycles = s.cycles := by simp [State.setRr]
@[simp] theorem State.setRr_reexec (n : Reg) (v : Long) : (s.setRr n v).reexec = s.reexec := by simp [State.setRr]
@[simp] theorem State.setRr_stop (n : Reg) (v : Long) : (s.setRr n v).stop = s.stop := by simp [State.setRr]
@[simp] theorem State.setRr_prog (n : Reg) (v : Long) : (s.setRr n v).prog = s.prog := by simp [State.setRr]
@[simp] theorem State.setRr_data (n : Reg) (v : Long) : (s.setRr n v).data = s.data := by simp [State.setRr]
@[simp] theorem State.setRr_io (n : Reg) (v : Long) : (s.setRr n v).io = s.io := by simp [State.setRr]
@[simp] theorem State.setRr_bus (n : Reg) (v : Long) : (s.setRr n v).bus = s.bus := by simp [State.setRr]
@[simp] theorem State.setRr_draws (n : Reg) (v : Long) : (s.setRr n v).draws = s.draws := by simp [State.setRr]
@[simp] theorem State.setRr_cfg (n : Reg) (v : Long) : (s.setRr n v).cfg = s.cfg := by simp [State.setRr]

/-! ### `setRq` -/

@[simp] theorem State.setRq_pc (n : Reg) (v : Quad) : (s.setRq n v).pc = s.pc := by simp [State.setRq]
@[simp] theorem State.setRq_fcw (n : Reg) (v : Quad) : (s.setRq n v).fcw = s.fcw := by simp [State.setRq]
@[simp] theorem State.setRq_psap (n : Reg) (v : Quad) : (s.setRq n v).psap = s.psap := by simp [State.setRq]
@[simp] theorem State.setRq_refresh (n : Reg) (v : Quad) : (s.setRq n v).refresh = s.refresh := by simp [State.setRq]
@[simp] theorem State.setRq_nviReq (n : Reg) (v : Quad) : (s.setRq n v).nviReq = s.nviReq := by simp [State.setRq]
@[simp] theorem State.setRq_viReq (n : Reg) (v : Quad) : (s.setRq n v).viReq = s.viReq := by simp [State.setRq]
@[simp] theorem State.setRq_viVector (n : Reg) (v : Quad) : (s.setRq n v).viVector = s.viVector := by simp [State.setRq]
@[simp] theorem State.setRq_nmiLine (n : Reg) (v : Quad) : (s.setRq n v).nmiLine = s.nmiLine := by simp [State.setRq]
@[simp] theorem State.setRq_nmiPending (n : Reg) (v : Quad) : (s.setRq n v).nmiPending = s.nmiPending := by simp [State.setRq]
@[simp] theorem State.setRq_halt (n : Reg) (v : Quad) : (s.setRq n v).halt = s.halt := by simp [State.setRq]
@[simp] theorem State.setRq_mi (n : Reg) (v : Quad) : (s.setRq n v).mi = s.mi := by simp [State.setRq]
@[simp] theorem State.setRq_cycles (n : Reg) (v : Quad) : (s.setRq n v).cycles = s.cycles := by simp [State.setRq]
@[simp] theorem State.setRq_reexec (n : Reg) (v : Quad) : (s.setRq n v).reexec = s.reexec := by simp [State.setRq]
@[simp] theorem State.setRq_stop (n : Reg) (v : Quad) : (s.setRq n v).stop = s.stop := by simp [State.setRq]
@[simp] theorem State.setRq_prog (n : Reg) (v : Quad) : (s.setRq n v).prog = s.prog := by simp [State.setRq]
@[simp] theorem State.setRq_data (n : Reg) (v : Quad) : (s.setRq n v).data = s.data := by simp [State.setRq]
@[simp] theorem State.setRq_io (n : Reg) (v : Quad) : (s.setRq n v).io = s.io := by simp [State.setRq]
@[simp] theorem State.setRq_bus (n : Reg) (v : Quad) : (s.setRq n v).bus = s.bus := by simp [State.setRq]
@[simp] theorem State.setRq_draws (n : Reg) (v : Quad) : (s.setRq n v).draws = s.draws := by simp [State.setRq]
@[simp] theorem State.setRq_cfg (n : Reg) (v : Quad) : (s.setRq n v).cfg = s.cfg := by simp [State.setRq]

/-! ### `setReg` -/

@[simp] theorem State.setReg_pc (z : Size) (n : Reg) (v : z.Val) : (s.setReg z n v).pc = s.pc := by cases z <;> simp [State.setReg]
@[simp] theorem State.setReg_fcw (z : Size) (n : Reg) (v : z.Val) : (s.setReg z n v).fcw = s.fcw := by cases z <;> simp [State.setReg]
@[simp] theorem State.setReg_psap (z : Size) (n : Reg) (v : z.Val) : (s.setReg z n v).psap = s.psap := by cases z <;> simp [State.setReg]
@[simp] theorem State.setReg_refresh (z : Size) (n : Reg) (v : z.Val) : (s.setReg z n v).refresh = s.refresh := by cases z <;> simp [State.setReg]
@[simp] theorem State.setReg_nviReq (z : Size) (n : Reg) (v : z.Val) : (s.setReg z n v).nviReq = s.nviReq := by cases z <;> simp [State.setReg]
@[simp] theorem State.setReg_viReq (z : Size) (n : Reg) (v : z.Val) : (s.setReg z n v).viReq = s.viReq := by cases z <;> simp [State.setReg]
@[simp] theorem State.setReg_viVector (z : Size) (n : Reg) (v : z.Val) : (s.setReg z n v).viVector = s.viVector := by cases z <;> simp [State.setReg]
@[simp] theorem State.setReg_nmiLine (z : Size) (n : Reg) (v : z.Val) : (s.setReg z n v).nmiLine = s.nmiLine := by cases z <;> simp [State.setReg]
@[simp] theorem State.setReg_nmiPending (z : Size) (n : Reg) (v : z.Val) : (s.setReg z n v).nmiPending = s.nmiPending := by cases z <;> simp [State.setReg]
@[simp] theorem State.setReg_halt (z : Size) (n : Reg) (v : z.Val) : (s.setReg z n v).halt = s.halt := by cases z <;> simp [State.setReg]
@[simp] theorem State.setReg_mi (z : Size) (n : Reg) (v : z.Val) : (s.setReg z n v).mi = s.mi := by cases z <;> simp [State.setReg]
@[simp] theorem State.setReg_cycles (z : Size) (n : Reg) (v : z.Val) : (s.setReg z n v).cycles = s.cycles := by cases z <;> simp [State.setReg]
@[simp] theorem State.setReg_reexec (z : Size) (n : Reg) (v : z.Val) : (s.setReg z n v).reexec = s.reexec := by cases z <;> simp [State.setReg]
@[simp] theorem State.setReg_stop (z : Size) (n : Reg) (v : z.Val) : (s.setReg z n v).stop = s.stop := by cases z <;> simp [State.setReg]
@[simp] theorem State.setReg_prog (z : Size) (n : Reg) (v : z.Val) : (s.setReg z n v).prog = s.prog := by cases z <;> simp [State.setReg]
@[simp] theorem State.setReg_data (z : Size) (n : Reg) (v : z.Val) : (s.setReg z n v).data = s.data := by cases z <;> simp [State.setReg]
@[simp] theorem State.setReg_io (z : Size) (n : Reg) (v : z.Val) : (s.setReg z n v).io = s.io := by cases z <;> simp [State.setReg]
@[simp] theorem State.setReg_bus (z : Size) (n : Reg) (v : z.Val) : (s.setReg z n v).bus = s.bus := by cases z <;> simp [State.setReg]
@[simp] theorem State.setReg_draws (z : Size) (n : Reg) (v : z.Val) : (s.setReg z n v).draws = s.draws := by cases z <;> simp [State.setReg]
@[simp] theorem State.setReg_cfg (z : Size) (n : Reg) (v : z.Val) : (s.setReg z n v).cfg = s.cfg := by cases z <;> simp [State.setReg]

/-! ### `bump` -/

@[simp] theorem State.bump_pc (n : Reg) (k : Word) : (s.bump n k).pc = s.pc := by simp [State.bump]
@[simp] theorem State.bump_fcw (n : Reg) (k : Word) : (s.bump n k).fcw = s.fcw := by simp [State.bump]
@[simp] theorem State.bump_psap (n : Reg) (k : Word) : (s.bump n k).psap = s.psap := by simp [State.bump]
@[simp] theorem State.bump_refresh (n : Reg) (k : Word) : (s.bump n k).refresh = s.refresh := by simp [State.bump]
@[simp] theorem State.bump_nviReq (n : Reg) (k : Word) : (s.bump n k).nviReq = s.nviReq := by simp [State.bump]
@[simp] theorem State.bump_viReq (n : Reg) (k : Word) : (s.bump n k).viReq = s.viReq := by simp [State.bump]
@[simp] theorem State.bump_viVector (n : Reg) (k : Word) : (s.bump n k).viVector = s.viVector := by simp [State.bump]
@[simp] theorem State.bump_nmiLine (n : Reg) (k : Word) : (s.bump n k).nmiLine = s.nmiLine := by simp [State.bump]
@[simp] theorem State.bump_nmiPending (n : Reg) (k : Word) : (s.bump n k).nmiPending = s.nmiPending := by simp [State.bump]
@[simp] theorem State.bump_halt (n : Reg) (k : Word) : (s.bump n k).halt = s.halt := by simp [State.bump]
@[simp] theorem State.bump_mi (n : Reg) (k : Word) : (s.bump n k).mi = s.mi := by simp [State.bump]
@[simp] theorem State.bump_cycles (n : Reg) (k : Word) : (s.bump n k).cycles = s.cycles := by simp [State.bump]
@[simp] theorem State.bump_reexec (n : Reg) (k : Word) : (s.bump n k).reexec = s.reexec := by simp [State.bump]
@[simp] theorem State.bump_stop (n : Reg) (k : Word) : (s.bump n k).stop = s.stop := by simp [State.bump]
@[simp] theorem State.bump_prog (n : Reg) (k : Word) : (s.bump n k).prog = s.prog := by simp [State.bump]
@[simp] theorem State.bump_data (n : Reg) (k : Word) : (s.bump n k).data = s.data := by simp [State.bump]
@[simp] theorem State.bump_io (n : Reg) (k : Word) : (s.bump n k).io = s.io := by simp [State.bump]
@[simp] theorem State.bump_bus (n : Reg) (k : Word) : (s.bump n k).bus = s.bus := by simp [State.bump]
@[simp] theorem State.bump_draws (n : Reg) (k : Word) : (s.bump n k).draws = s.draws := by simp [State.bump]
@[simp] theorem State.bump_cfg (n : Reg) (k : Word) : (s.bump n k).cfg = s.cfg := by simp [State.bump]

/-! ### `popped` -/

@[simp] theorem State.popped_pc (n : Reg) (z : Size) : (s.popped n z).pc = s.pc := by simp [State.popped]
@[simp] theorem State.popped_fcw (n : Reg) (z : Size) : (s.popped n z).fcw = s.fcw := by simp [State.popped]
@[simp] theorem State.popped_psap (n : Reg) (z : Size) : (s.popped n z).psap = s.psap := by simp [State.popped]
@[simp] theorem State.popped_refresh (n : Reg) (z : Size) : (s.popped n z).refresh = s.refresh := by simp [State.popped]
@[simp] theorem State.popped_nviReq (n : Reg) (z : Size) : (s.popped n z).nviReq = s.nviReq := by simp [State.popped]
@[simp] theorem State.popped_viReq (n : Reg) (z : Size) : (s.popped n z).viReq = s.viReq := by simp [State.popped]
@[simp] theorem State.popped_viVector (n : Reg) (z : Size) : (s.popped n z).viVector = s.viVector := by simp [State.popped]
@[simp] theorem State.popped_nmiLine (n : Reg) (z : Size) : (s.popped n z).nmiLine = s.nmiLine := by simp [State.popped]
@[simp] theorem State.popped_nmiPending (n : Reg) (z : Size) : (s.popped n z).nmiPending = s.nmiPending := by simp [State.popped]
@[simp] theorem State.popped_halt (n : Reg) (z : Size) : (s.popped n z).halt = s.halt := by simp [State.popped]
@[simp] theorem State.popped_mi (n : Reg) (z : Size) : (s.popped n z).mi = s.mi := by simp [State.popped]
@[simp] theorem State.popped_cycles (n : Reg) (z : Size) : (s.popped n z).cycles = s.cycles := by simp [State.popped]
@[simp] theorem State.popped_reexec (n : Reg) (z : Size) : (s.popped n z).reexec = s.reexec := by simp [State.popped]
@[simp] theorem State.popped_stop (n : Reg) (z : Size) : (s.popped n z).stop = s.stop := by simp [State.popped]
@[simp] theorem State.popped_prog (n : Reg) (z : Size) : (s.popped n z).prog = s.prog := by simp [State.popped]
@[simp] theorem State.popped_data (n : Reg) (z : Size) : (s.popped n z).data = s.data := by simp [State.popped]
@[simp] theorem State.popped_io (n : Reg) (z : Size) : (s.popped n z).io = s.io := by simp [State.popped]
@[simp] theorem State.popped_bus (n : Reg) (z : Size) : (s.popped n z).bus = s.bus := by simp [State.popped]
@[simp] theorem State.popped_draws (n : Reg) (z : Size) : (s.popped n z).draws = s.draws := by simp [State.popped]
@[simp] theorem State.popped_cfg (n : Reg) (z : Size) : (s.popped n z).cfg = s.cfg := by simp [State.popped]

/-! ### `setMem` -/

@[simp] theorem State.setMem_regs (sp : Space) (m : Memory) : (s.setMem sp m).regs = s.regs := by unfold State.setMem; split <;> (try split) <;> rfl
@[simp] theorem State.setMem_ssp (sp : Space) (m : Memory) : (s.setMem sp m).ssp = s.ssp := by unfold State.setMem; split <;> (try split) <;> rfl
@[simp] theorem State.setMem_nsp (sp : Space) (m : Memory) : (s.setMem sp m).nsp = s.nsp := by unfold State.setMem; split <;> (try split) <;> rfl
@[simp] theorem State.setMem_pc (sp : Space) (m : Memory) : (s.setMem sp m).pc = s.pc := by unfold State.setMem; split <;> (try split) <;> rfl
@[simp] theorem State.setMem_fcw (sp : Space) (m : Memory) : (s.setMem sp m).fcw = s.fcw := by unfold State.setMem; split <;> (try split) <;> rfl
@[simp] theorem State.setMem_psap (sp : Space) (m : Memory) : (s.setMem sp m).psap = s.psap := by unfold State.setMem; split <;> (try split) <;> rfl
@[simp] theorem State.setMem_refresh (sp : Space) (m : Memory) : (s.setMem sp m).refresh = s.refresh := by unfold State.setMem; split <;> (try split) <;> rfl
@[simp] theorem State.setMem_nviReq (sp : Space) (m : Memory) : (s.setMem sp m).nviReq = s.nviReq := by unfold State.setMem; split <;> (try split) <;> rfl
@[simp] theorem State.setMem_viReq (sp : Space) (m : Memory) : (s.setMem sp m).viReq = s.viReq := by unfold State.setMem; split <;> (try split) <;> rfl
@[simp] theorem State.setMem_viVector (sp : Space) (m : Memory) : (s.setMem sp m).viVector = s.viVector := by unfold State.setMem; split <;> (try split) <;> rfl
@[simp] theorem State.setMem_nmiLine (sp : Space) (m : Memory) : (s.setMem sp m).nmiLine = s.nmiLine := by unfold State.setMem; split <;> (try split) <;> rfl
@[simp] theorem State.setMem_nmiPending (sp : Space) (m : Memory) : (s.setMem sp m).nmiPending = s.nmiPending := by unfold State.setMem; split <;> (try split) <;> rfl
@[simp] theorem State.setMem_halt (sp : Space) (m : Memory) : (s.setMem sp m).halt = s.halt := by unfold State.setMem; split <;> (try split) <;> rfl
@[simp] theorem State.setMem_mi (sp : Space) (m : Memory) : (s.setMem sp m).mi = s.mi := by unfold State.setMem; split <;> (try split) <;> rfl
@[simp] theorem State.setMem_cycles (sp : Space) (m : Memory) : (s.setMem sp m).cycles = s.cycles := by unfold State.setMem; split <;> (try split) <;> rfl
@[simp] theorem State.setMem_reexec (sp : Space) (m : Memory) : (s.setMem sp m).reexec = s.reexec := by unfold State.setMem; split <;> (try split) <;> rfl
@[simp] theorem State.setMem_stop (sp : Space) (m : Memory) : (s.setMem sp m).stop = s.stop := by unfold State.setMem; split <;> (try split) <;> rfl
@[simp] theorem State.setMem_io (sp : Space) (m : Memory) : (s.setMem sp m).io = s.io := by unfold State.setMem; split <;> (try split) <;> rfl
@[simp] theorem State.setMem_bus (sp : Space) (m : Memory) : (s.setMem sp m).bus = s.bus := by unfold State.setMem; split <;> (try split) <;> rfl
@[simp] theorem State.setMem_draws (sp : Space) (m : Memory) : (s.setMem sp m).draws = s.draws := by unfold State.setMem; split <;> (try split) <;> rfl
@[simp] theorem State.setMem_cfg (sp : Space) (m : Memory) : (s.setMem sp m).cfg = s.cfg := by unfold State.setMem; split <;> (try split) <;> rfl

/-! ### `writeByte` -/

@[simp] theorem State.writeByte_regs (sp : Space) (a : Word) (v : Byte) : (s.writeByte sp a v).regs = s.regs := by simp [State.writeByte]
@[simp] theorem State.writeByte_ssp (sp : Space) (a : Word) (v : Byte) : (s.writeByte sp a v).ssp = s.ssp := by simp [State.writeByte]
@[simp] theorem State.writeByte_nsp (sp : Space) (a : Word) (v : Byte) : (s.writeByte sp a v).nsp = s.nsp := by simp [State.writeByte]
@[simp] theorem State.writeByte_pc (sp : Space) (a : Word) (v : Byte) : (s.writeByte sp a v).pc = s.pc := by simp [State.writeByte]
@[simp] theorem State.writeByte_fcw (sp : Space) (a : Word) (v : Byte) : (s.writeByte sp a v).fcw = s.fcw := by simp [State.writeByte]
@[simp] theorem State.writeByte_psap (sp : Space) (a : Word) (v : Byte) : (s.writeByte sp a v).psap = s.psap := by simp [State.writeByte]
@[simp] theorem State.writeByte_refresh (sp : Space) (a : Word) (v : Byte) : (s.writeByte sp a v).refresh = s.refresh := by simp [State.writeByte]
@[simp] theorem State.writeByte_nviReq (sp : Space) (a : Word) (v : Byte) : (s.writeByte sp a v).nviReq = s.nviReq := by simp [State.writeByte]
@[simp] theorem State.writeByte_viReq (sp : Space) (a : Word) (v : Byte) : (s.writeByte sp a v).viReq = s.viReq := by simp [State.writeByte]
@[simp] theorem State.writeByte_viVector (sp : Space) (a : Word) (v : Byte) : (s.writeByte sp a v).viVector = s.viVector := by simp [State.writeByte]
@[simp] theorem State.writeByte_nmiLine (sp : Space) (a : Word) (v : Byte) : (s.writeByte sp a v).nmiLine = s.nmiLine := by simp [State.writeByte]
@[simp] theorem State.writeByte_nmiPending (sp : Space) (a : Word) (v : Byte) : (s.writeByte sp a v).nmiPending = s.nmiPending := by simp [State.writeByte]
@[simp] theorem State.writeByte_halt (sp : Space) (a : Word) (v : Byte) : (s.writeByte sp a v).halt = s.halt := by simp [State.writeByte]
@[simp] theorem State.writeByte_mi (sp : Space) (a : Word) (v : Byte) : (s.writeByte sp a v).mi = s.mi := by simp [State.writeByte]
@[simp] theorem State.writeByte_cycles (sp : Space) (a : Word) (v : Byte) : (s.writeByte sp a v).cycles = s.cycles := by simp [State.writeByte]
@[simp] theorem State.writeByte_reexec (sp : Space) (a : Word) (v : Byte) : (s.writeByte sp a v).reexec = s.reexec := by simp [State.writeByte]
@[simp] theorem State.writeByte_stop (sp : Space) (a : Word) (v : Byte) : (s.writeByte sp a v).stop = s.stop := by simp [State.writeByte]
@[simp] theorem State.writeByte_io (sp : Space) (a : Word) (v : Byte) : (s.writeByte sp a v).io = s.io := by simp [State.writeByte]
@[simp] theorem State.writeByte_bus (sp : Space) (a : Word) (v : Byte) : (s.writeByte sp a v).bus = s.bus := by simp [State.writeByte]
@[simp] theorem State.writeByte_draws (sp : Space) (a : Word) (v : Byte) : (s.writeByte sp a v).draws = s.draws := by simp [State.writeByte]
@[simp] theorem State.writeByte_cfg (sp : Space) (a : Word) (v : Byte) : (s.writeByte sp a v).cfg = s.cfg := by simp [State.writeByte]

/-! ### `writeWord` -/

@[simp] theorem State.writeWord_regs (sp : Space) (a v : Word) : (s.writeWord sp a v).regs = s.regs := by simp [State.writeWord]
@[simp] theorem State.writeWord_ssp (sp : Space) (a v : Word) : (s.writeWord sp a v).ssp = s.ssp := by simp [State.writeWord]
@[simp] theorem State.writeWord_nsp (sp : Space) (a v : Word) : (s.writeWord sp a v).nsp = s.nsp := by simp [State.writeWord]
@[simp] theorem State.writeWord_pc (sp : Space) (a v : Word) : (s.writeWord sp a v).pc = s.pc := by simp [State.writeWord]
@[simp] theorem State.writeWord_fcw (sp : Space) (a v : Word) : (s.writeWord sp a v).fcw = s.fcw := by simp [State.writeWord]
@[simp] theorem State.writeWord_psap (sp : Space) (a v : Word) : (s.writeWord sp a v).psap = s.psap := by simp [State.writeWord]
@[simp] theorem State.writeWord_refresh (sp : Space) (a v : Word) : (s.writeWord sp a v).refresh = s.refresh := by simp [State.writeWord]
@[simp] theorem State.writeWord_nviReq (sp : Space) (a v : Word) : (s.writeWord sp a v).nviReq = s.nviReq := by simp [State.writeWord]
@[simp] theorem State.writeWord_viReq (sp : Space) (a v : Word) : (s.writeWord sp a v).viReq = s.viReq := by simp [State.writeWord]
@[simp] theorem State.writeWord_viVector (sp : Space) (a v : Word) : (s.writeWord sp a v).viVector = s.viVector := by simp [State.writeWord]
@[simp] theorem State.writeWord_nmiLine (sp : Space) (a v : Word) : (s.writeWord sp a v).nmiLine = s.nmiLine := by simp [State.writeWord]
@[simp] theorem State.writeWord_nmiPending (sp : Space) (a v : Word) : (s.writeWord sp a v).nmiPending = s.nmiPending := by simp [State.writeWord]
@[simp] theorem State.writeWord_halt (sp : Space) (a v : Word) : (s.writeWord sp a v).halt = s.halt := by simp [State.writeWord]
@[simp] theorem State.writeWord_mi (sp : Space) (a v : Word) : (s.writeWord sp a v).mi = s.mi := by simp [State.writeWord]
@[simp] theorem State.writeWord_cycles (sp : Space) (a v : Word) : (s.writeWord sp a v).cycles = s.cycles := by simp [State.writeWord]
@[simp] theorem State.writeWord_reexec (sp : Space) (a v : Word) : (s.writeWord sp a v).reexec = s.reexec := by simp [State.writeWord]
@[simp] theorem State.writeWord_stop (sp : Space) (a v : Word) : (s.writeWord sp a v).stop = s.stop := by simp [State.writeWord]
@[simp] theorem State.writeWord_io (sp : Space) (a v : Word) : (s.writeWord sp a v).io = s.io := by simp [State.writeWord]
@[simp] theorem State.writeWord_bus (sp : Space) (a v : Word) : (s.writeWord sp a v).bus = s.bus := by simp [State.writeWord]
@[simp] theorem State.writeWord_draws (sp : Space) (a v : Word) : (s.writeWord sp a v).draws = s.draws := by simp [State.writeWord]
@[simp] theorem State.writeWord_cfg (sp : Space) (a v : Word) : (s.writeWord sp a v).cfg = s.cfg := by simp [State.writeWord]

/-! ### `writeLong` -/

@[simp] theorem State.writeLong_regs (sp : Space) (a : Word) (v : Long) : (s.writeLong sp a v).regs = s.regs := by simp [State.writeLong]
@[simp] theorem State.writeLong_ssp (sp : Space) (a : Word) (v : Long) : (s.writeLong sp a v).ssp = s.ssp := by simp [State.writeLong]
@[simp] theorem State.writeLong_nsp (sp : Space) (a : Word) (v : Long) : (s.writeLong sp a v).nsp = s.nsp := by simp [State.writeLong]
@[simp] theorem State.writeLong_pc (sp : Space) (a : Word) (v : Long) : (s.writeLong sp a v).pc = s.pc := by simp [State.writeLong]
@[simp] theorem State.writeLong_fcw (sp : Space) (a : Word) (v : Long) : (s.writeLong sp a v).fcw = s.fcw := by simp [State.writeLong]
@[simp] theorem State.writeLong_psap (sp : Space) (a : Word) (v : Long) : (s.writeLong sp a v).psap = s.psap := by simp [State.writeLong]
@[simp] theorem State.writeLong_refresh (sp : Space) (a : Word) (v : Long) : (s.writeLong sp a v).refresh = s.refresh := by simp [State.writeLong]
@[simp] theorem State.writeLong_nviReq (sp : Space) (a : Word) (v : Long) : (s.writeLong sp a v).nviReq = s.nviReq := by simp [State.writeLong]
@[simp] theorem State.writeLong_viReq (sp : Space) (a : Word) (v : Long) : (s.writeLong sp a v).viReq = s.viReq := by simp [State.writeLong]
@[simp] theorem State.writeLong_viVector (sp : Space) (a : Word) (v : Long) : (s.writeLong sp a v).viVector = s.viVector := by simp [State.writeLong]
@[simp] theorem State.writeLong_nmiLine (sp : Space) (a : Word) (v : Long) : (s.writeLong sp a v).nmiLine = s.nmiLine := by simp [State.writeLong]
@[simp] theorem State.writeLong_nmiPending (sp : Space) (a : Word) (v : Long) : (s.writeLong sp a v).nmiPending = s.nmiPending := by simp [State.writeLong]
@[simp] theorem State.writeLong_halt (sp : Space) (a : Word) (v : Long) : (s.writeLong sp a v).halt = s.halt := by simp [State.writeLong]
@[simp] theorem State.writeLong_mi (sp : Space) (a : Word) (v : Long) : (s.writeLong sp a v).mi = s.mi := by simp [State.writeLong]
@[simp] theorem State.writeLong_cycles (sp : Space) (a : Word) (v : Long) : (s.writeLong sp a v).cycles = s.cycles := by simp [State.writeLong]
@[simp] theorem State.writeLong_reexec (sp : Space) (a : Word) (v : Long) : (s.writeLong sp a v).reexec = s.reexec := by simp [State.writeLong]
@[simp] theorem State.writeLong_stop (sp : Space) (a : Word) (v : Long) : (s.writeLong sp a v).stop = s.stop := by simp [State.writeLong]
@[simp] theorem State.writeLong_io (sp : Space) (a : Word) (v : Long) : (s.writeLong sp a v).io = s.io := by simp [State.writeLong]
@[simp] theorem State.writeLong_bus (sp : Space) (a : Word) (v : Long) : (s.writeLong sp a v).bus = s.bus := by simp [State.writeLong]
@[simp] theorem State.writeLong_draws (sp : Space) (a : Word) (v : Long) : (s.writeLong sp a v).draws = s.draws := by simp [State.writeLong]
@[simp] theorem State.writeLong_cfg (sp : Space) (a : Word) (v : Long) : (s.writeLong sp a v).cfg = s.cfg := by simp [State.writeLong]

/-! ### `memWrite` -/

@[simp] theorem State.memWrite_regs (sp : Space) (z : Size) (a : Word) (v : z.Val) : (s.memWrite sp z a v).regs = s.regs := by cases z <;> simp [State.memWrite]
@[simp] theorem State.memWrite_ssp (sp : Space) (z : Size) (a : Word) (v : z.Val) : (s.memWrite sp z a v).ssp = s.ssp := by cases z <;> simp [State.memWrite]
@[simp] theorem State.memWrite_nsp (sp : Space) (z : Size) (a : Word) (v : z.Val) : (s.memWrite sp z a v).nsp = s.nsp := by cases z <;> simp [State.memWrite]
@[simp] theorem State.memWrite_pc (sp : Space) (z : Size) (a : Word) (v : z.Val) : (s.memWrite sp z a v).pc = s.pc := by cases z <;> simp [State.memWrite]
@[simp] theorem State.memWrite_fcw (sp : Space) (z : Size) (a : Word) (v : z.Val) : (s.memWrite sp z a v).fcw = s.fcw := by cases z <;> simp [State.memWrite]
@[simp] theorem State.memWrite_psap (sp : Space) (z : Size) (a : Word) (v : z.Val) : (s.memWrite sp z a v).psap = s.psap := by cases z <;> simp [State.memWrite]
@[simp] theorem State.memWrite_refresh (sp : Space) (z : Size) (a : Word) (v : z.Val) : (s.memWrite sp z a v).refresh = s.refresh := by cases z <;> simp [State.memWrite]
@[simp] theorem State.memWrite_nviReq (sp : Space) (z : Size) (a : Word) (v : z.Val) : (s.memWrite sp z a v).nviReq = s.nviReq := by cases z <;> simp [State.memWrite]
@[simp] theorem State.memWrite_viReq (sp : Space) (z : Size) (a : Word) (v : z.Val) : (s.memWrite sp z a v).viReq = s.viReq := by cases z <;> simp [State.memWrite]
@[simp] theorem State.memWrite_viVector (sp : Space) (z : Size) (a : Word) (v : z.Val) : (s.memWrite sp z a v).viVector = s.viVector := by cases z <;> simp [State.memWrite]
@[simp] theorem State.memWrite_nmiLine (sp : Space) (z : Size) (a : Word) (v : z.Val) : (s.memWrite sp z a v).nmiLine = s.nmiLine := by cases z <;> simp [State.memWrite]
@[simp] theorem State.memWrite_nmiPending (sp : Space) (z : Size) (a : Word) (v : z.Val) : (s.memWrite sp z a v).nmiPending = s.nmiPending := by cases z <;> simp [State.memWrite]
@[simp] theorem State.memWrite_halt (sp : Space) (z : Size) (a : Word) (v : z.Val) : (s.memWrite sp z a v).halt = s.halt := by cases z <;> simp [State.memWrite]
@[simp] theorem State.memWrite_mi (sp : Space) (z : Size) (a : Word) (v : z.Val) : (s.memWrite sp z a v).mi = s.mi := by cases z <;> simp [State.memWrite]
@[simp] theorem State.memWrite_cycles (sp : Space) (z : Size) (a : Word) (v : z.Val) : (s.memWrite sp z a v).cycles = s.cycles := by cases z <;> simp [State.memWrite]
@[simp] theorem State.memWrite_reexec (sp : Space) (z : Size) (a : Word) (v : z.Val) : (s.memWrite sp z a v).reexec = s.reexec := by cases z <;> simp [State.memWrite]
@[simp] theorem State.memWrite_stop (sp : Space) (z : Size) (a : Word) (v : z.Val) : (s.memWrite sp z a v).stop = s.stop := by cases z <;> simp [State.memWrite]
@[simp] theorem State.memWrite_io (sp : Space) (z : Size) (a : Word) (v : z.Val) : (s.memWrite sp z a v).io = s.io := by cases z <;> simp [State.memWrite]
@[simp] theorem State.memWrite_bus (sp : Space) (z : Size) (a : Word) (v : z.Val) : (s.memWrite sp z a v).bus = s.bus := by cases z <;> simp [State.memWrite]
@[simp] theorem State.memWrite_draws (sp : Space) (z : Size) (a : Word) (v : z.Val) : (s.memWrite sp z a v).draws = s.draws := by cases z <;> simp [State.memWrite]
@[simp] theorem State.memWrite_cfg (sp : Space) (z : Size) (a : Word) (v : z.Val) : (s.memWrite sp z a v).cfg = s.cfg := by cases z <;> simp [State.memWrite]

/-! ### `clearLatch` -/

@[simp] theorem State.clearLatch_regs (t : Trap) : (s.clearLatch t).regs = s.regs := by cases t <;> rfl
@[simp] theorem State.clearLatch_ssp (t : Trap) : (s.clearLatch t).ssp = s.ssp := by cases t <;> rfl
@[simp] theorem State.clearLatch_nsp (t : Trap) : (s.clearLatch t).nsp = s.nsp := by cases t <;> rfl
@[simp] theorem State.clearLatch_pc (t : Trap) : (s.clearLatch t).pc = s.pc := by cases t <;> rfl
@[simp] theorem State.clearLatch_fcw (t : Trap) : (s.clearLatch t).fcw = s.fcw := by cases t <;> rfl
@[simp] theorem State.clearLatch_psap (t : Trap) : (s.clearLatch t).psap = s.psap := by cases t <;> rfl
@[simp] theorem State.clearLatch_refresh (t : Trap) : (s.clearLatch t).refresh = s.refresh := by cases t <;> rfl
@[simp] theorem State.clearLatch_viVector (t : Trap) : (s.clearLatch t).viVector = s.viVector := by cases t <;> rfl
@[simp] theorem State.clearLatch_nmiLine (t : Trap) : (s.clearLatch t).nmiLine = s.nmiLine := by cases t <;> rfl
@[simp] theorem State.clearLatch_halt (t : Trap) : (s.clearLatch t).halt = s.halt := by cases t <;> rfl
@[simp] theorem State.clearLatch_mi (t : Trap) : (s.clearLatch t).mi = s.mi := by cases t <;> rfl
@[simp] theorem State.clearLatch_cycles (t : Trap) : (s.clearLatch t).cycles = s.cycles := by cases t <;> rfl
@[simp] theorem State.clearLatch_reexec (t : Trap) : (s.clearLatch t).reexec = s.reexec := by cases t <;> rfl
@[simp] theorem State.clearLatch_stop (t : Trap) : (s.clearLatch t).stop = s.stop := by cases t <;> rfl
@[simp] theorem State.clearLatch_prog (t : Trap) : (s.clearLatch t).prog = s.prog := by cases t <;> rfl
@[simp] theorem State.clearLatch_data (t : Trap) : (s.clearLatch t).data = s.data := by cases t <;> rfl
@[simp] theorem State.clearLatch_io (t : Trap) : (s.clearLatch t).io = s.io := by cases t <;> rfl
@[simp] theorem State.clearLatch_bus (t : Trap) : (s.clearLatch t).bus = s.bus := by cases t <;> rfl
@[simp] theorem State.clearLatch_draws (t : Trap) : (s.clearLatch t).draws = s.draws := by cases t <;> rfl
@[simp] theorem State.clearLatch_cfg (t : Trap) : (s.clearLatch t).cfg = s.cfg := by cases t <;> rfl

/-! ### `pushSystem` -/

@[simp] theorem State.pushSystem_regs (v : Word) : (s.pushSystem v).regs = s.regs := by simp [State.pushSystem]
@[simp] theorem State.pushSystem_nsp (v : Word) : (s.pushSystem v).nsp = s.nsp := by simp [State.pushSystem]
@[simp] theorem State.pushSystem_pc (v : Word) : (s.pushSystem v).pc = s.pc := by simp [State.pushSystem]
@[simp] theorem State.pushSystem_fcw (v : Word) : (s.pushSystem v).fcw = s.fcw := by simp [State.pushSystem]
@[simp] theorem State.pushSystem_psap (v : Word) : (s.pushSystem v).psap = s.psap := by simp [State.pushSystem]
@[simp] theorem State.pushSystem_refresh (v : Word) : (s.pushSystem v).refresh = s.refresh := by simp [State.pushSystem]
@[simp] theorem State.pushSystem_nviReq (v : Word) : (s.pushSystem v).nviReq = s.nviReq := by simp [State.pushSystem]
@[simp] theorem State.pushSystem_viReq (v : Word) : (s.pushSystem v).viReq = s.viReq := by simp [State.pushSystem]
@[simp] theorem State.pushSystem_viVector (v : Word) : (s.pushSystem v).viVector = s.viVector := by simp [State.pushSystem]
@[simp] theorem State.pushSystem_nmiLine (v : Word) : (s.pushSystem v).nmiLine = s.nmiLine := by simp [State.pushSystem]
@[simp] theorem State.pushSystem_nmiPending (v : Word) : (s.pushSystem v).nmiPending = s.nmiPending := by simp [State.pushSystem]
@[simp] theorem State.pushSystem_halt (v : Word) : (s.pushSystem v).halt = s.halt := by simp [State.pushSystem]
@[simp] theorem State.pushSystem_mi (v : Word) : (s.pushSystem v).mi = s.mi := by simp [State.pushSystem]
@[simp] theorem State.pushSystem_cycles (v : Word) : (s.pushSystem v).cycles = s.cycles := by simp [State.pushSystem]
@[simp] theorem State.pushSystem_reexec (v : Word) : (s.pushSystem v).reexec = s.reexec := by simp [State.pushSystem]
@[simp] theorem State.pushSystem_stop (v : Word) : (s.pushSystem v).stop = s.stop := by simp [State.pushSystem]
@[simp] theorem State.pushSystem_io (v : Word) : (s.pushSystem v).io = s.io := by simp [State.pushSystem]
@[simp] theorem State.pushSystem_bus (v : Word) : (s.pushSystem v).bus = s.bus := by simp [State.pushSystem]
@[simp] theorem State.pushSystem_draws (v : Word) : (s.pushSystem v).draws = s.draws := by simp [State.pushSystem]
@[simp] theorem State.pushSystem_cfg (v : Word) : (s.pushSystem v).cfg = s.cfg := by simp [State.pushSystem]

@[simp] theorem State.pushSystem_ssp (v : Word) : (s.pushSystem v).ssp = s.ssp - 2 := by simp [State.pushSystem]

/-! ### `rewind` -/

@[simp] theorem State.rewind_regs (ia : Word) : (s.rewind ia).regs = s.regs := by unfold State.rewind; split <;> rfl
@[simp] theorem State.rewind_ssp (ia : Word) : (s.rewind ia).ssp = s.ssp := by unfold State.rewind; split <;> rfl
@[simp] theorem State.rewind_nsp (ia : Word) : (s.rewind ia).nsp = s.nsp := by unfold State.rewind; split <;> rfl
@[simp] theorem State.rewind_fcw (ia : Word) : (s.rewind ia).fcw = s.fcw := by unfold State.rewind; split <;> rfl
@[simp] theorem State.rewind_psap (ia : Word) : (s.rewind ia).psap = s.psap := by unfold State.rewind; split <;> rfl
@[simp] theorem State.rewind_refresh (ia : Word) : (s.rewind ia).refresh = s.refresh := by unfold State.rewind; split <;> rfl
@[simp] theorem State.rewind_nviReq (ia : Word) : (s.rewind ia).nviReq = s.nviReq := by unfold State.rewind; split <;> rfl
@[simp] theorem State.rewind_viReq (ia : Word) : (s.rewind ia).viReq = s.viReq := by unfold State.rewind; split <;> rfl
@[simp] theorem State.rewind_viVector (ia : Word) : (s.rewind ia).viVector = s.viVector := by unfold State.rewind; split <;> rfl
@[simp] theorem State.rewind_nmiLine (ia : Word) : (s.rewind ia).nmiLine = s.nmiLine := by unfold State.rewind; split <;> rfl
@[simp] theorem State.rewind_nmiPending (ia : Word) : (s.rewind ia).nmiPending = s.nmiPending := by unfold State.rewind; split <;> rfl
@[simp] theorem State.rewind_halt (ia : Word) : (s.rewind ia).halt = s.halt := by unfold State.rewind; split <;> rfl
@[simp] theorem State.rewind_mi (ia : Word) : (s.rewind ia).mi = s.mi := by unfold State.rewind; split <;> rfl
@[simp] theorem State.rewind_cycles (ia : Word) : (s.rewind ia).cycles = s.cycles := by unfold State.rewind; split <;> rfl
@[simp] theorem State.rewind_stop (ia : Word) : (s.rewind ia).stop = s.stop := by unfold State.rewind; split <;> rfl
@[simp] theorem State.rewind_prog (ia : Word) : (s.rewind ia).prog = s.prog := by unfold State.rewind; split <;> rfl
@[simp] theorem State.rewind_data (ia : Word) : (s.rewind ia).data = s.data := by unfold State.rewind; split <;> rfl
@[simp] theorem State.rewind_io (ia : Word) : (s.rewind ia).io = s.io := by unfold State.rewind; split <;> rfl
@[simp] theorem State.rewind_bus (ia : Word) : (s.rewind ia).bus = s.bus := by unfold State.rewind; split <;> rfl
@[simp] theorem State.rewind_draws (ia : Word) : (s.rewind ia).draws = s.draws := by unfold State.rewind; split <;> rfl
@[simp] theorem State.rewind_cfg (ia : Word) : (s.rewind ia).cfg = s.cfg := by unfold State.rewind; split <;> rfl

end Sys2Proof.Machine
end

