-- ==== Sys2Proof/Laws/Regs.lean ====
section
/-! SUPPORT. Laws/Regs.lean: what a register reads as after each operation (`10_state.md` R31 to R38). -/
namespace Sys2Proof.Machine

variable (s t : State)

/-! ## Bits of words -/

theorem putBit_getLsbD (w : Word) (i j : Nat) (b : Bool) (hi : i < 16) :
    (putBit w i b).getLsbD j = if j = i then b else w.getLsbD j := by
  have one : (1#16 <<< i).getLsbD j = decide (j = i) := by
    by_cases h : j = i
    · subst h; simp [hi]
    · simp [BitVec.getLsbD_shiftLeft, BitVec.getLsbD_one, h]
      omega
  cases b
  · have : putBit w i false = w &&& ~~~(1#16 <<< i) := rfl
    rw [this, BitVec.getLsbD_and, BitVec.getLsbD_not, one]
    by_cases h : j = i
    · simp [h]
    · by_cases hj : j < 16
      · simp [h, hj]
      · simp [h, hj, BitVec.getLsbD_of_ge w j (by omega)]
  · have : putBit w i true = w ||| (1#16 <<< i) := rfl
    rw [this, BitVec.getLsbD_or, one]
    by_cases h : j = i <;> simp [h]

/-- Two neighbouring slices join to one. -/
theorem slice_append {w : Nat} (v : BitVec w) (i m n : Nat) :
    v.extractLsb' (i + n) m ++ v.extractLsb' i n = v.extractLsb' i (m + n) := by
  apply BitVec.eq_of_getLsbD_eq
  intro k hk
  simp only [BitVec.getLsbD_append, BitVec.getLsbD_extractLsb']
  by_cases h : k < n
  · simp [h, hk]
  · have h1 : i + n + (k - n) = i + k := by omega
    simp [h, hk, h1]; omega

/-- A slice of a slice. -/
theorem slice_slice {w : Nat} (v : BitVec w) (i m j n : Nat) (h : j + n ≤ m) :
    (v.extractLsb' i m).extractLsb' j n = v.extractLsb' (i + j) n := by
  apply BitVec.eq_of_getLsbD_eq
  intro k hk
  have : j + k < m := by omega
  simp [hk, this, Nat.add_assoc]

theorem append_high {m n : Nat} (a : BitVec m) (b : BitVec n) : (a ++ b).extractLsb' n m = a := by
  apply BitVec.eq_of_getLsbD_eq
  intro k hk
  simp [BitVec.getLsbD_append, hk]

theorem append_low {m n : Nat} (a : BitVec m) (b : BitVec n) : (a ++ b).extractLsb' 0 n = b := by
  apply BitVec.eq_of_getLsbD_eq
  intro k hk
  simp [BitVec.getLsbD_append, hk]

@[simp] theorem hi_append_lo (w : Word) : Word.hi w ++ Word.lo w = w := by
  have h := slice_append w 0 8 8
  simpa [Word.hi, Word.lo] using h

@[simp] theorem hi_append (a b : Byte) : Word.hi (a ++ b) = a := append_high a b

@[simp] theorem lo_append (a b : Byte) : Word.lo (a ++ b) = b := append_low a b

@[simp] theorem long_split (v : Long) : v.extractLsb' 16 16 ++ v.extractLsb' 0 16 = v := by
  have h := slice_append v 0 16 16
  simpa using h

@[simp] theorem quad_split (v : Quad) : v.extractLsb' 32 32 ++ v.extractLsb' 0 32 = v := by
  have h := slice_append v 0 32 32
  simpa using h

/-! ## The mode and the register file depend on the FCW and the stored registers only -/

theorem State.sysMode_congr (h : t.fcw = s.fcw) : t.sysMode = s.sysMode := by simp [State.sysMode, h]

theorem State.rw_congr (hr : t.regs = s.regs) (hs : t.ssp = s.ssp) (hn : t.nsp = s.nsp) (hm : t.sysMode = s.sysMode)
    (n : Reg) : t.rw n = s.rw n := by
  simp [State.rw, State.sp, hr, hs, hn, hm]

theorem State.otherSp_congr (hs : t.ssp = s.ssp) (hn : t.nsp = s.nsp) (hm : t.sysMode = s.sysMode) :
    t.otherSp = s.otherSp := by
  simp [State.otherSp, hs, hn, hm]

theorem State.rb_congr (h : ∀ n, t.rw n = s.rw n) (n : Reg) : t.rb n = s.rb n := by simp [State.rb, h]

theorem State.rr_congr (h : ∀ n, t.rw n = s.rw n) (n : Reg) : t.rr n = s.rr n := by simp [State.rr, h]

theorem State.rq_congr (h : ∀ n, t.rw n = s.rw n) (n : Reg) : t.rq n = s.rq n := by simp [State.rq, State.rr, h]

theorem State.reg_congr (h : ∀ n, t.rw n = s.rw n) (z : Size) (n : Reg) : t.reg z n = s.reg z n := by
  cases z <;> simp [State.reg, State.rb, State.rr, h]

/-! ## Word registers -/

@[simp] theorem State.sysMode_setRw (n : Reg) (v : Word) : (s.setRw n v).sysMode = s.sysMode :=
  State.sysMode_congr _ _ (by simp)

theorem reg_lt_or_eq (n : Reg) : n.toNat < 15 ∨ n = 15 := by
  have := n.isLt
  by_cases h : n.toNat < 15
  · exact .inl h
  · exact .inr (BitVec.eq_of_toNat_eq (by simp; omega))

theorem State.sp_setSp (v : Word) : (s.setSp v).sp = v := by
  have h : (s.setSp v).sysMode = s.sysMode := State.sysMode_congr _ _ (by simp)
  unfold State.sp
  rw [h]
  unfold State.setSp
  split <;> rfl

@[simp] theorem State.regs_setSp (v : Word) : (s.setSp v).regs = s.regs := by unfold State.setSp; split <;> rfl

theorem State.setRw_fifteen (v : Word) : s.setRw 15 v = s.setSp v := by simp [State.setRw]

theorem State.rw_setRw (n m : Reg) (v : Word) : (s.setRw n v).rw m = if m = n then v else s.rw m := by
  rcases reg_lt_or_eq n with hn | rfl
  · rcases reg_lt_or_eq m with hm | rfl
    · by_cases h : m = n
      · subst h; simp [State.setRw, State.rw, hm]
      · have : n.toNat ≠ m.toNat := fun h' => h (BitVec.eq_of_toNat_eq h'.symm)
        simp [State.setRw, State.rw, hn, hm, h, Vector.getElem_set_ne, this]
    · have h : (15 : Reg) ≠ n := by rintro rfl; simp at hn
      rw [if_neg h]
      simp [State.setRw, State.rw, hn, State.sp, State.sysMode]
  · rcases reg_lt_or_eq m with hm | rfl
    · have h : m ≠ 15 := by rintro rfl; simp at hm
      rw [if_neg h, State.setRw_fifteen]
      simp [State.rw, hm]
    · rw [if_pos rfl, State.setRw_fifteen]
      simp [State.rw, State.sp_setSp]

@[simp] theorem State.rw_setRw_same (n : Reg) (v : Word) : (s.setRw n v).rw n = v := by simp [State.rw_setRw]

theorem State.rw_setRw_of_ne {n m : Reg} (h : m ≠ n) (v : Word) : (s.setRw n v).rw m = s.rw m := by
  simp [State.rw_setRw, h]

@[simp] theorem State.otherSp_setRw (n : Reg) (v : Word) : (s.setRw n v).otherSp = s.otherSp := by
  unfold State.otherSp
  rw [State.sysMode_setRw]
  unfold State.setRw State.setSp
  by_cases hm : s.sysMode <;> by_cases hn : n.toNat < 15 <;> simp [hm, hn]

/-- Writing back what a register holds changes nothing. -/
theorem State.setRw_self (n : Reg) : s.setRw n (s.rw n) = s := by
  rcases reg_lt_or_eq n with hn | rfl
  · simp [State.setRw, State.rw, hn]
  · simp [State.setRw, State.rw, State.setSp, State.sp]
    cases s.sysMode <;> simp

/-! ## Byte registers -/

/-- A word register holds the byte registers `n` and `n + 8` of its number. -/
theorem byteHome_eq (n m : Reg) : byteHome m = byteHome n ↔ m = n ∨ m = n + 8 := by
  revert n m; decide

theorem State.rw_setRb (n m : Reg) (v : Byte) :
    (s.setRb n v).rw m =
      if m = byteHome n then
        (if n.getLsbD 3 then (s.rw (byteHome n)).hi ++ v else v ++ (s.rw (byteHome n)).lo)
      else s.rw m := by
  simp [State.setRb, State.rw_setRw]

theorem State.rw_setRb_of_ne {n m : Reg} (h : m ≠ byteHome n) (v : Byte) : (s.setRb n v).rw m = s.rw m := by
  simp [State.rw_setRb, h]

@[simp] theorem State.rb_setRb_same (n : Reg) (v : Byte) : (s.setRb n v).rb n = v := by
  unfold State.rb
  simp only [State.rw_setRb, if_true]
  split <;> simp

theorem State.rb_setRb (n m : Reg) (v : Byte) : (s.setRb n v).rb m = if m = n then v else s.rb m := by
  by_cases h : m = n
  · subst h; simp
  · simp only [h, if_false, State.rb, State.rw_setRb]
    by_cases h2 : byteHome m = byteHome n
    · have hm : m = n + 8 := ((byteHome_eq n m).1 h2).resolve_left h
      have hb : m.getLsbD 3 = !n.getLsbD 3 := by subst hm; revert n; decide
      simp only [h2, if_true, hb]
      cases n.getLsbD 3 <;> simp
    · simp [h2]

@[simp] theorem State.sysMode_setRb (n : Reg) (v : Byte) : (s.setRb n v).sysMode = s.sysMode := by simp [State.setRb]

@[simp] theorem State.otherSp_setRb (n : Reg) (v : Byte) : (s.setRb n v).otherSp = s.otherSp := by simp [State.setRb]

/-! ## Long and quad registers -/

theorem State.rw_setRr (n m : Reg) (v : Long) :
    (s.setRr n v).rw m =
      if m = n + 1 then v.extractLsb' 0 16 else if m = n then v.extractLsb' 16 16 else s.rw m := by
  simp [State.setRr, State.rw_setRw]

@[simp] theorem State.sysMode_setRr (n : Reg) (v : Long) : (s.setRr n v).sysMode = s.sysMode := by simp [State.setRr]

@[simp] theorem State.otherSp_setRr (n : Reg) (v : Long) : (s.setRr n v).otherSp = s.otherSp := by simp [State.setRr]

theorem reg_ne_succ (n : Reg) : n ≠ n + 1 := by revert n; decide

@[simp] theorem State.rr_setRr_same (n : Reg) (v : Long) : (s.setRr n v).rr n = v := by
  simp [State.rr, State.rw_setRr]

theorem reg_add_two_one (n : Reg) : n + 2 + 1 = n + 3 := by revert n; decide

theorem State.rw_setRq (n m : Reg) (v : Quad) :
    (s.setRq n v).rw m =
      if m = n + 3 then v.extractLsb' 0 16 else if m = n + 2 then v.extractLsb' 16 16
      else if m = n + 1 then v.extractLsb' 32 16 else if m = n then v.extractLsb' 48 16 else s.rw m := by
  simp only [State.setRq, State.rw_setRr, reg_add_two_one]
  rw [slice_slice _ _ _ _ _ (by decide), slice_slice _ _ _ _ _ (by decide), slice_slice _ _ _ _ _ (by decide),
    slice_slice _ _ _ _ _ (by decide)]

@[simp] theorem State.sysMode_setRq (n : Reg) (v : Quad) : (s.setRq n v).sysMode = s.sysMode := by simp [State.setRq]

@[simp] theorem State.otherSp_setRq (n : Reg) (v : Quad) : (s.setRq n v).otherSp = s.otherSp := by simp [State.setRq]

theorem regs_distinct (n : Reg) :
    n ≠ n + 3 ∧ n ≠ n + 2 ∧ n ≠ n + 1 ∧ n + 1 ≠ n + 3 ∧ n + 1 ≠ n + 2 ∧ n + 2 ≠ n + 3 := by revert n; decide

@[simp] theorem State.rq_setRq_same (n : Reg) (v : Quad) : (s.setRq n v).rq n = v := by
  obtain ⟨h1, h2, h3, h4, h5, h6⟩ := regs_distinct n
  have c := slice_append v 32 16 16
  have d := slice_append v 0 16 16
  simp only [State.rq, State.rr, reg_add_two_one, State.rw_setRq, if_neg h1, if_neg h2, if_neg h3, if_neg h4, if_neg h5,
    if_neg h6, if_true]
  simp only [Nat.zero_add] at c d
  rw [c, d]
  exact quad_split v

/-! ## A register through the view of a width -/

@[simp] theorem State.reg_setReg_same (z : Size) (n : Reg) (v : z.Val) : (s.setReg z n v).reg z n = v := by
  cases z <;> simp [State.reg, State.setReg]

theorem State.rw_setReg_of_not_mem {z : Size} {n m : Reg} (h : m ∉ destRegs z n) (v : z.Val) :
    (s.setReg z n v).rw m = s.rw m := by
  cases z <;> simp_all [State.setReg, destRegs, State.rw_setRb, State.rw_setRw, State.rw_setRr]

@[simp] theorem State.sysMode_setReg (z : Size) (n : Reg) (v : z.Val) : (s.setReg z n v).sysMode = s.sysMode := by
  cases z <;> simp [State.setReg]

@[simp] theorem State.otherSp_setReg (z : Size) (n : Reg) (v : z.Val) : (s.setReg z n v).otherSp = s.otherSp := by
  cases z <;> simp [State.setReg]

/-! ## The stack pointers (R37, R38) -/

theorem State.rw_fifteen : s.rw 15 = if s.sysMode then s.ssp else s.nsp := by simp [State.rw, State.sp]

theorem State.setRw_fifteen_sys (h : s.sysMode = true) (v : Word) : s.setRw 15 v = { s with ssp := v } := by
  simp [State.setRw, State.setSp, h]

theorem State.setRw_fifteen_normal (h : s.sysMode = false) (v : Word) : s.setRw 15 v = { s with nsp := v } := by
  simp [State.setRw, State.setSp, h]

/-- A write of R0 to R14 keeps both stack pointers. -/
theorem State.setRw_keeps_sps {n : Reg} (h : n ≠ 15) (v : Word) :
    (s.setRw n v).ssp = s.ssp ∧ (s.setRw n v).nsp = s.nsp := by
  have hn : n.toNat < 15 := (reg_lt_or_eq n).resolve_right h
  simp [State.setRw, hn]

end Sys2Proof.Machine
end

