-- ==== Sys2Proof/Laws/Mem.lean ====
section
/-! SUPPORT. Laws/Mem.lean: reads after writes of bytes, words and longs, through the spaces and under both policies for
odd addresses (`20_memory.md` R80 to R90); the registers and the mode under a memory write. -/
namespace Sys2Proof.Machine

variable (s : State)

/-! ## Addresses of words (R90) -/

theorem and_fffe_toNat (a : Word) : (a &&& 0xFFFE).toNat = 2 * (a.toNat / 2) := by
  apply Nat.eq_of_testBit_eq
  intro i
  have h : (0xFFFE : Word).toNat = 2 * (2 ^ 15 - 1) := rfl
  rw [BitVec.toNat_and, h, Nat.testBit_and]
  have ha := a.isLt
  cases i with
  | zero => simp
  | succ i =>
    have e : ∀ n : Nat, 2 * n / 2 = n := by intro n; omega
    rw [Nat.testBit_add_one, Nat.testBit_add_one, Nat.testBit_add_one, e, e, Nat.testBit_two_pow_sub_one]
    by_cases hi : i < 15
    · simp [hi]
    · have : a.toNat / 2 < 2 ^ i := Nat.lt_of_lt_of_le (by omega : _ < 2 ^ 15) (Nat.pow_le_pow_right (by decide) (by omega))
      simp [hi, Nat.testBit_lt_two_pow this]

theorem wordAddr_add_two (c : Config) (a : Word) : wordAddr c (a + 2) = wordAddr c a + 2 := by
  unfold wordAddr
  split
  · apply BitVec.eq_of_toNat_eq
    have h2 : (2 : Word).toNat = 2 := rfl
    have := a.isLt
    rw [and_fffe_toNat, BitVec.toNat_add, BitVec.toNat_add, and_fffe_toNat, h2]
    omega
  · rfl

theorem add_ne_add (a j k : Word) (h : j ≠ k) : a + j ≠ a + k := by bv_omega

theorem add_one_ne (a : Word) : a + 1 ≠ a := by bv_omega

/-- The bytes of an access, from the address of its first word. -/
theorem accessBytes_long (c : Config) (a : Word) :
    accessBytes c .l a = [wordAddr c a, wordAddr c a + 1, wordAddr c a + 2, wordAddr c a + 3] := by
  have h : wordAddr c a + 2 + 1 = wordAddr c a + 3 := by rw [BitVec.add_assoc]; rfl
  rw [accessBytes, wordAddr_add_two, h]

theorem four_distinct (w : Word) : [w, w + 1, w + 2, w + 3].Nodup := by
  have e : ∀ k : Word, k ≠ 0 → w ≠ w + k := by intro k hk; bv_omega
  simp only [List.nodup_cons, List.mem_cons, List.not_mem_nil, or_false, not_or, not_false_eq_true, and_true,
    List.nodup_nil]
  exact ⟨⟨e 1 (by decide), e 2 (by decide), e 3 (by decide)⟩,
    ⟨add_ne_add w 1 2 (by decide), add_ne_add w 1 3 (by decide)⟩, add_ne_add w 2 3 (by decide)⟩

theorem accessBytes_nodup (c : Config) (z : Size) (a : Word) : (accessBytes c z a).Nodup := by
  cases z
  · simp [accessBytes]
  · simp [accessBytes]
  · rw [accessBytes_long]
    exact four_distinct _

/-! ## Bytes -/

theorem State.mem_setMem (sp sp' : Space) (m : Memory) :
    (s.setMem sp m).mem sp' = if sp' = sp ∨ s.cfg.separateData = false then m else s.mem sp' := by
  cases sp <;> cases sp' <;> cases h : s.cfg.separateData <;> simp [State.mem, State.setMem, h]

@[simp] theorem State.home_setMem (sp sp' : Space) (m : Memory) : (s.setMem sp m).home sp' = s.home sp' := by
  cases sp <;> cases sp' <;> cases h : s.cfg.separateData <;> simp [State.home, State.setMem, h]

theorem State.readByte_writeByte (sp sp' : Space) (a a' : Word) (v : Byte) :
    (s.writeByte sp a v).readByte sp' a' =
      if (sp' = sp ∨ s.cfg.separateData = false) ∧ a' = a then v else s.readByte sp' a' := by
  unfold State.readByte State.writeByte
  rw [State.mem_setMem]
  by_cases h : sp' = sp ∨ s.cfg.separateData = false
  · rw [if_pos h]
    have hm : s.mem sp' = s.mem sp := by
      rcases h with rfl | h
      · rfl
      · cases sp <;> cases sp' <;> simp [State.mem, h]
    by_cases ha : a' = a
    · subst ha; simp [h, Memory.read_write_same]
    · have : a'.toNat ≠ a.toNat := fun e => ha (BitVec.eq_of_toNat_eq e)
      simp [ha, hm, Memory.read_write_other _ _ (Ne.symm this)]
  · simp [h]

/-- A byte that neither the core nor the host has written is a free value (R96, log 2). -/
theorem State.readByte_of_unlisted {sp : Space} {a : Word} (h : (s.mem sp).read a.toNat = none) :
    s.readByte sp a = Config.freeByte (s.home sp) a := by simp [State.readByte, h]

@[simp] theorem State.readByte_writeByte_same (sp : Space) (a : Word) (v : Byte) :
    (s.writeByte sp a v).readByte sp a = v := by simp [State.readByte_writeByte]

theorem State.readByte_writeByte_of_ne {a a' : Word} (h : a' ≠ a) (sp sp' : Space) (v : Byte) :
    (s.writeByte sp a v).readByte sp' a' = s.readByte sp' a' := by simp [State.readByte_writeByte, h]

/-! ## Reads depend on the memories and the parameters only -/

theorem State.readByte_congr {s t : State} (hp : t.prog = s.prog) (hd : t.data = s.data) (hc : t.cfg = s.cfg)
    (sp : Space) (a : Word) : t.readByte sp a = s.readByte sp a := by
  cases sp <;> simp [State.readByte, State.mem, State.home, hp, hd, hc]

theorem State.readWord_congr {s t : State} (h : ∀ sp a, t.readByte sp a = s.readByte sp a) (hc : t.cfg = s.cfg)
    (sp : Space) (a : Word) : t.readWord sp a = s.readWord sp a := by simp [State.readWord, h, hc]

theorem State.memRead_congr {s t : State} (h : ∀ sp a, t.readByte sp a = s.readByte sp a) (hc : t.cfg = s.cfg)
    (sp : Space) (z : Size) (a : Word) : t.memRead sp z a = s.memRead sp z a := by
  cases z <;> simp [State.memRead, State.readLong, State.readWord, h, hc]

/-- A read of a width depends on the bytes it covers only. -/
theorem State.memRead_of_bytes {s t : State} (hc : t.cfg = s.cfg) {sp : Space} {z : Size} {a : Word}
    (h : ∀ b ∈ accessBytes s.cfg z a, t.readByte sp b = s.readByte sp b) : t.memRead sp z a = s.memRead sp z a := by
  cases z <;> simp_all [State.memRead, State.readLong, State.readWord, accessBytes]

@[simp] theorem State.readByte_setReg (z : Size) (n : Reg) (v : z.Val) (sp : Space) (a : Word) :
    (s.setReg z n v).readByte sp a = s.readByte sp a := State.readByte_congr (by simp) (by simp) (by simp) _ _

@[simp] theorem State.readByte_setRw (n : Reg) (v : Word) (sp : Space) (a : Word) :
    (s.setRw n v).readByte sp a = s.readByte sp a := State.readByte_congr (by simp) (by simp) (by simp) _ _

@[simp] theorem State.readByte_setRb (n : Reg) (v : Byte) (sp : Space) (a : Word) :
    (s.setRb n v).readByte sp a = s.readByte sp a := State.readByte_congr (by simp) (by simp) (by simp) _ _

@[simp] theorem State.readByte_setFlags (f : FlagWrite) (sp : Space) (a : Word) :
    (s.setFlags f).readByte sp a = s.readByte sp a := State.readByte_congr rfl rfl rfl _ _

@[simp] theorem State.readByte_setPc (p : Word) (sp : Space) (a : Word) :
    (s.setPc p).readByte sp a = s.readByte sp a := State.readByte_congr rfl rfl rfl _ _

@[simp] theorem State.memRead_setRw (n : Reg) (v : Word) (sp : Space) (z : Size) (a : Word) :
    (s.setRw n v).memRead sp z a = s.memRead sp z a := State.memRead_congr (by simp) (by simp) _ _ _

@[simp] theorem State.memRead_setReg (z' : Size) (n : Reg) (v : z'.Val) (sp : Space) (z : Size) (a : Word) :
    (s.setReg z' n v).memRead sp z a = s.memRead sp z a := State.memRead_congr (by simp) (by simp) _ _ _

@[simp] theorem State.memRead_setFlags (f : FlagWrite) (sp : Space) (z : Size) (a : Word) :
    (s.setFlags f).memRead sp z a = s.memRead sp z a := State.memRead_congr (by simp) (by simp) _ _ _

@[simp] theorem State.memRead_setPc (p : Word) (sp : Space) (z : Size) (a : Word) :
    (s.setPc p).memRead sp z a = s.memRead sp z a := State.memRead_congr (by simp) (by simp) _ _ _

/-! ## Words and longs -/

theorem State.readWord_writeWord_same (sp : Space) (a v : Word) : (s.writeWord sp a v).readWord sp a = v := by
  unfold State.readWord State.writeWord
  simp [State.readByte_writeByte]

/-- A memory write changes the bytes of the access only. -/
theorem State.readByte_memWrite_of_not_covered {sp sp' : Space} {z : Size} {a b : Word} (v : z.Val)
    (h : ¬ Covered s.cfg sp (accessBytes s.cfg z a) sp' b) : (s.memWrite sp z a v).readByte sp' b = s.readByte sp' b := by
  cases z
  · simp only [State.memWrite, State.readByte_writeByte]
    simp only [Covered, accessBytes, List.mem_singleton] at h
    rw [if_neg h]
  · simp only [State.memWrite, State.writeWord, State.readByte_writeByte, State.writeByte_cfg]
    simp only [Covered, accessBytes, List.mem_cons, List.not_mem_nil, or_false] at h
    rw [if_neg (by grind), if_neg (by grind)]
  · simp only [State.memWrite, State.writeLong, State.writeWord, State.readByte_writeByte, State.writeByte_cfg]
    simp only [Covered, accessBytes, List.mem_cons, List.not_mem_nil, or_false] at h
    rw [if_neg (by grind), if_neg (by grind), if_neg (by grind), if_neg (by grind)]

theorem State.readWord_writeWord_of_ne {sp sp' : Space} {a a' : Word} (v : Word)
    (h : ∀ b ∈ accessBytes s.cfg .w a', b ∉ accessBytes s.cfg .w a) :
    (s.writeWord sp a v).readWord sp' a' = s.readWord sp' a' := by
  have := State.memRead_of_bytes (s := s) (t := s.writeWord sp a v) (sp := sp') (z := .w) (a := a') (by simp)
    (fun b hb => s.readByte_memWrite_of_not_covered (z := .w) v (fun hc => h b hb hc.2))
  exact this

theorem word_add_two_apart (c : Config) (a : Word) : ∀ b ∈ accessBytes c .w a, b ∉ accessBytes c .w (a + 2) := by
  have h := accessBytes_nodup c .l a
  simp only [accessBytes] at h ⊢
  intro b hb
  simp only [List.nodup_cons, List.mem_cons, List.not_mem_nil, or_false] at h hb ⊢
  rcases hb with rfl | rfl <;> grind

theorem State.readLong_writeLong_same (sp : Space) (a : Word) (v : Long) : (s.writeLong sp a v).readLong sp a = v := by
  unfold State.readLong State.writeLong
  rw [State.readWord_writeWord_same,
    State.readWord_writeWord_of_ne _ _ (by simpa using word_add_two_apart s.cfg a), State.readWord_writeWord_same]
  exact long_split v

@[simp] theorem State.memRead_memWrite_same (sp : Space) (z : Size) (a : Word) (v : z.Val) :
    (s.memWrite sp z a v).memRead sp z a = v := by
  cases z
  · simp [State.memRead, State.memWrite]
  · exact s.readWord_writeWord_same sp a v
  · exact s.readLong_writeLong_same sp a v

/-! ## The registers under a memory write -/

@[simp] theorem State.sysMode_memWrite (sp : Space) (z : Size) (a : Word) (v : z.Val) :
    (s.memWrite sp z a v).sysMode = s.sysMode := State.sysMode_congr _ _ (by simp)

@[simp] theorem State.rw_memWrite (sp : Space) (z : Size) (a : Word) (v : z.Val) (n : Reg) :
    (s.memWrite sp z a v).rw n = s.rw n := State.rw_congr _ _ (by simp) (by simp) (by simp) (by simp) _

@[simp] theorem State.otherSp_memWrite (sp : Space) (z : Size) (a : Word) (v : z.Val) :
    (s.memWrite sp z a v).otherSp = s.otherSp := State.otherSp_congr _ _ (by simp) (by simp) (by simp)

/-! ## The canonical form is kept -/

theorem State.setMem_keeps_wf {sp : Space} {m : Memory} (hm : m.wf = true) (hp : s.prog.wf = true) (hd : s.data.wf = true) :
    (s.setMem sp m).prog.wf = true ∧ (s.setMem sp m).data.wf = true := by
  unfold State.setMem
  split
  · exact ⟨hm, hd⟩
  · split
    · exact ⟨hp, hm⟩
    · exact ⟨hm, hd⟩

theorem State.mem_wf (sp : Space) (hp : s.prog.wf = true) (hd : s.data.wf = true) : (s.mem sp).wf = true := by
  unfold State.mem
  split
  · exact hp
  · split
    · exact hd
    · exact hp

theorem State.writeByte_keeps_wf (sp : Space) (a : Word) (v : Byte) (hp : s.prog.wf = true) (hd : s.data.wf = true) :
    (s.writeByte sp a v).prog.wf = true ∧ (s.writeByte sp a v).data.wf = true :=
  s.setMem_keeps_wf (Memory.wf_write _ a.isLt (s.mem_wf sp hp hd)) hp hd

theorem State.writeWord_keeps_wf (sp : Space) (a v : Word) (hp : s.prog.wf = true) (hd : s.data.wf = true) :
    (s.writeWord sp a v).prog.wf = true ∧ (s.writeWord sp a v).data.wf = true := by
  obtain ⟨h1, h2⟩ := s.writeByte_keeps_wf sp (wordAddr s.cfg a) v.hi hp hd
  exact State.writeByte_keeps_wf _ _ _ _ h1 h2

theorem State.memWrite_keeps_wf (sp : Space) (z : Size) (a : Word) (v : z.Val) (hp : s.prog.wf = true)
    (hd : s.data.wf = true) : (s.memWrite sp z a v).prog.wf = true ∧ (s.memWrite sp z a v).data.wf = true := by
  cases z
  · exact s.writeByte_keeps_wf _ _ _ hp hd
  · exact s.writeWord_keeps_wf _ _ _ hp hd
  · obtain ⟨h1, h2⟩ := s.writeWord_keeps_wf sp a (v.extractLsb' 16 16) hp hd
    exact State.writeWord_keeps_wf _ _ _ _ h1 h2

end Sys2Proof.Machine
end

