-- ==== Sys2Proof/Laws/FlagBits.lean ====
section
/-! SUPPORT. Laws/FlagBits.lean: the FCW bits after a flag write (`10_state.md` R42, R46). -/
namespace Sys2Proof.Machine

variable (s : State)

/-- The FCW bits a flag write replaces. -/
def FlagWrite.bits (f : FlagWrite) : List Nat :=
  (if f.c.isSome then [bitC] else []) ++ (if f.z.isSome then [bitZ] else []) ++ (if f.s.isSome then [bitS] else []) ++
  (if f.v.isSome then [bitV] else []) ++ (if f.d.isSome then [bitD] else []) ++ (if f.h.isSome then [bitH] else [])

theorem putOpt_getLsbD (w : Word) (i j : Nat) (o : Option Bool) (hi : i < 16) :
    (putOpt w i o).getLsbD j = if j = i then o.getD (w.getLsbD i) else w.getLsbD j := by
  cases o with
  | none => by_cases h : j = i <;> simp [putOpt, h]
  | some b => simp [putOpt, putBit_getLsbD _ _ _ _ hi]

theorem FlagWrite.getLsbD_apply (f : FlagWrite) (w : Word) (i : Nat) :
    (f.apply w).getLsbD i =
      if i = 7 then f.c.getD (w.getLsbD 7) else if i = 6 then f.z.getD (w.getLsbD 6)
      else if i = 5 then f.s.getD (w.getLsbD 5) else if i = 4 then f.v.getD (w.getLsbD 4)
      else if i = 3 then f.d.getD (w.getLsbD 3) else if i = 2 then f.h.getD (w.getLsbD 2) else w.getLsbD i := by
  unfold FlagWrite.apply
  simp only [putOpt_getLsbD _ 7 _ _ (by decide), putOpt_getLsbD _ 6 _ _ (by decide), putOpt_getLsbD _ 5 _ _ (by decide),
    putOpt_getLsbD _ 4 _ _ (by decide), putOpt_getLsbD _ 3 _ _ (by decide), putOpt_getLsbD _ 2 _ _ (by decide)]
  grind

@[simp] theorem State.flagC_setFlags (f : FlagWrite) : (s.setFlags f).flagC = f.c.getD s.flagC :=
  f.getLsbD_apply s.fcw 7
@[simp] theorem State.flagZ_setFlags (f : FlagWrite) : (s.setFlags f).flagZ = f.z.getD s.flagZ :=
  f.getLsbD_apply s.fcw 6
@[simp] theorem State.flagS_setFlags (f : FlagWrite) : (s.setFlags f).flagS = f.s.getD s.flagS :=
  f.getLsbD_apply s.fcw 5
@[simp] theorem State.flagV_setFlags (f : FlagWrite) : (s.setFlags f).flagV = f.v.getD s.flagV :=
  f.getLsbD_apply s.fcw 4
@[simp] theorem State.flagD_setFlags (f : FlagWrite) : (s.setFlags f).flagD = f.d.getD s.flagD :=
  f.getLsbD_apply s.fcw 3
@[simp] theorem State.flagH_setFlags (f : FlagWrite) : (s.setFlags f).flagH = f.h.getD s.flagH :=
  f.getLsbD_apply s.fcw 2

/-- A flag write keeps every bit it does not name. -/
theorem FlagWrite.getLsbD_apply_of_not_mem (f : FlagWrite) (w : Word) {i : Nat} (h : i ∉ f.bits) :
    (f.apply w).getLsbD i = w.getLsbD i := by
  have g : ∀ (k : Nat) (o : Option Bool), k ∉ (if o.isSome then [k] else []) → o.getD (w.getLsbD k) = w.getLsbD k := by
    intro k o ho; cases o <;> simp_all
  simp only [FlagWrite.bits, List.mem_append, not_or, bitC, bitZ, bitS, bitV, bitD, bitH] at h
  obtain ⟨⟨⟨⟨⟨h7, h6⟩, h5⟩, h4⟩, h3⟩, h2⟩ := h
  rw [FlagWrite.getLsbD_apply]
  grind

@[simp] theorem State.sysMode_setFlags (f : FlagWrite) : (s.setFlags f).sysMode = s.sysMode :=
  f.getLsbD_apply s.fcw 14

@[simp] theorem State.rw_setFlags (f : FlagWrite) (n : Reg) : (s.setFlags f).rw n = s.rw n :=
  State.rw_congr s (s.setFlags f) rfl rfl rfl (s.sysMode_setFlags f) _

@[simp] theorem State.reg_setFlags (f : FlagWrite) (z : Size) (n : Reg) : (s.setFlags f).reg z n = s.reg z n :=
  State.reg_congr s (s.setFlags f) (s.rw_setFlags f) _ _

@[simp] theorem State.otherSp_setFlags (f : FlagWrite) : (s.setFlags f).otherSp = s.otherSp :=
  State.otherSp_congr s (s.setFlags f) rfl rfl (s.sysMode_setFlags f)

/-- The flags do not depend on the registers or the memory. -/
theorem State.flags_congr {s t : State} (h : t.fcw = s.fcw) :
    t.flagC = s.flagC ∧ t.flagZ = s.flagZ ∧ t.flagS = s.flagS ∧ t.flagV = s.flagV ∧ t.flagD = s.flagD ∧
      t.flagH = s.flagH := by
  simp [State.flagC, State.flagZ, State.flagS, State.flagV, State.flagD, State.flagH, h]

end Sys2Proof.Machine
end

