-- ==== Sys2Proof/Laws/Frame.lean ====
section
/-! SUPPORT. Laws/Frame.lean: frames compose, and the frame of each shared operation. A frame statement about an
instruction is assembled from these. -/
namespace Sys2Proof.Machine

variable {s t u : State}

theorem State.SameRest.refl (s : State) : s.SameRest s := by constructor <;> rfl

theorem State.SameRest.trans (h : s.SameRest t) (k : t.SameRest u) : s.SameRest u := by
  constructor <;> simp [k.psap, k.refresh, k.nviReq, k.viReq, k.viVector, k.nmiLine, k.nmiPending, k.halt, k.mi, k.cycles,
    k.stop, k.bus, k.draws, k.cfg, h.psap, h.refresh, h.nviReq, h.viReq, h.viVector, h.nmiLine, h.nmiPending, h.halt, h.mi,
    h.cycles, h.stop, h.bus, h.draws, h.cfg]

theorem Covered.mono {c : Config} {sp sp' : Space} {a : Word} {l l' : List Word} (hl : ∀ x ∈ l, x ∈ l')
    (h : Covered c sp l sp' a) : Covered c sp l' sp' a := ⟨h.1, hl _ h.2⟩

/-- Two updates one after the other, each with its frame in the same space. -/
theorem State.FrameCore.trans {rs rs' fs fs' sp st st'} (h : s.FrameCore t rs fs sp st)
    (k : t.FrameCore u rs' fs' sp st') : s.FrameCore u (rs ++ rs') (fs ++ fs') sp (st ++ st') where
  regs n hn := by
    rw [List.mem_append, not_or] at hn
    rw [k.regs n hn.2, h.regs n hn.1]
  otherSp := by rw [k.otherSp, h.otherSp]
  fcw i hi := by
    rw [List.mem_append, not_or] at hi
    rw [k.fcw i hi.2, h.fcw i hi.1]
  mem sp' a ha := by
    rw [k.mem sp' a (fun hc => ha ?_), h.mem sp' a (fun hc => ha (hc.mono (by simp +contextual)))]
    rw [h.rest.cfg] at hc
    exact hc.mono (by simp +contextual)
  rest := h.rest.trans k.rest

theorem State.Frame.trans {rs rs' fs fs' sp st st'} (h : s.Frame t rs fs sp st) (k : t.Frame u rs' fs' sp st') :
    s.Frame u (rs ++ rs') (fs ++ fs') sp (st ++ st') where
  toFrameCore := h.toFrameCore.trans k.toFrameCore
  io := by rw [k.io, h.io]
  reexec := by rw [k.reexec, h.reexec]

theorem State.Straight.trans {rs rs' fs fs' sp st st'} (h : s.Straight t rs fs sp st) (k : t.Straight u rs' fs' sp st') :
    s.Straight u (rs ++ rs') (fs ++ fs') sp (st ++ st') where
  toFrame := h.toFrame.trans k.toFrame
  pc := by rw [k.pc, h.pc]

/-- A frame may name more registers, flags and bytes than change. -/
theorem State.FrameCore.mono {rs rs' fs fs' sp st st'} (h : s.FrameCore t rs fs sp st) (hr : ∀ n ∈ rs, n ∈ rs')
    (hf : ∀ i ∈ fs, i ∈ fs') (hs : ∀ a ∈ st, a ∈ st') : s.FrameCore t rs' fs' sp st' where
  regs n hn := h.regs n (fun hc => hn (hr n hc))
  otherSp := h.otherSp
  fcw i hi := h.fcw i (fun hc => hi (hf i hc))
  mem sp' a ha := h.mem sp' a (fun hc => ha (hc.mono hs))
  rest := h.rest

theorem State.Frame.mono {rs rs' fs fs' sp st st'} (h : s.Frame t rs fs sp st) (hr : ∀ n ∈ rs, n ∈ rs')
    (hf : ∀ i ∈ fs, i ∈ fs') (hs : ∀ a ∈ st, a ∈ st') : s.Frame t rs' fs' sp st' where
  toFrameCore := h.toFrameCore.mono hr hf hs
  io := h.io
  reexec := h.reexec

theorem State.Straight.mono {rs rs' fs fs' sp st st'} (h : s.Straight t rs fs sp st) (hr : ∀ n ∈ rs, n ∈ rs')
    (hf : ∀ i ∈ fs, i ∈ fs') (hs : ∀ a ∈ st, a ∈ st') : s.Straight t rs' fs' sp st' where
  toFrame := h.toFrame.mono hr hf hs
  pc := h.pc

/-- A frame that stores nothing holds in any space. -/
theorem State.Straight.anySpace {rs fs sp sp'} (h : s.Straight t rs fs sp []) : s.Straight t rs fs sp' [] where
  toFrame := { h.toFrame with mem := fun _ _ _ => h.mem _ _ (by simp [Covered]) }
  pc := h.pc

theorem State.Straight.refl (s : State) (sp : Space) : s.Straight s [] [] sp [] where
  regs _ _ := rfl
  otherSp := rfl
  fcw _ _ := rfl
  mem _ _ _ := rfl
  rest := .refl s
  io := rfl
  reexec := rfl
  pc := rfl

/-! ## The frames of the shared operations -/

theorem State.straight_setReg (s : State) (z : Size) (n : Reg) (v : z.Val) (sp : Space) :
    s.Straight (s.setReg z n v) (destRegs z n) [] sp [] where
  regs _ h := s.rw_setReg_of_not_mem h v
  otherSp := by simp
  fcw := by simp
  mem := by simp
  rest := by constructor <;> simp
  io := by simp
  reexec := by simp
  pc := by simp

theorem State.straight_setRw (s : State) (n : Reg) (v : Word) (sp : Space) : s.Straight (s.setRw n v) [n] [] sp [] :=
  s.straight_setReg .w n v sp

theorem State.straight_setRb (s : State) (n : Reg) (v : Byte) (sp : Space) :
    s.Straight (s.setRb n v) [byteHome n] [] sp [] := s.straight_setReg .b n v sp

theorem State.straight_setRr (s : State) (n : Reg) (v : Long) (sp : Space) :
    s.Straight (s.setRr n v) [n, n + 1] [] sp [] := s.straight_setReg .l n v sp

theorem State.straight_memWrite (s : State) (sp : Space) (z : Size) (a : Word) (v : z.Val) :
    s.Straight (s.memWrite sp z a v) [] [] sp (accessBytes s.cfg z a) where
  regs := by simp
  otherSp := by simp
  fcw := by simp
  mem _ _ h := s.readByte_memWrite_of_not_covered v h
  rest := by constructor <;> simp
  io := by simp
  reexec := by simp
  pc := by simp

theorem State.straight_setFlags (s : State) (f : FlagWrite) (sp : Space) : s.Straight (s.setFlags f) [] f.bits sp [] where
  regs := by simp
  otherSp := by simp
  fcw i h := f.getLsbD_apply_of_not_mem s.fcw h
  mem := by simp
  rest := by constructor <;> simp
  io := by simp
  reexec := by simp
  pc := by simp

theorem State.straight_store (s : State) (z : Size) (v : z.Val) (dst : RegMem) :
    s.Straight (RegMem.store s z v dst) (RegMem.regs z dst) [] .data (RegMem.bytes s z dst) := by
  cases dst with
  | reg n => exact s.straight_setReg z n v .data
  | mem m => exact s.straight_memWrite .data z _ v

/-- A value stored in an operand, then flags. -/
theorem State.straight_store_setFlags (s : State) (z : Size) (v : z.Val) (dst : RegMem) (f : FlagWrite) :
    s.Straight ((RegMem.store s z v dst).setFlags f) (RegMem.regs z dst) f.bits .data (RegMem.bytes s z dst) :=
  ((s.straight_store z v dst).trans (State.straight_setFlags _ f .data)).mono (by simp) (by simp) (by simp)

/-- A value stored in a register, then flags. -/
theorem State.straight_setReg_setFlags (s : State) (z : Size) (n : Reg) (v : z.Val) (f : FlagWrite) (sp : Space) :
    s.Straight ((s.setReg z n v).setFlags f) (destRegs z n) f.bits sp [] :=
  ((s.straight_setReg z n v sp).trans (State.straight_setFlags _ f sp)).mono (by simp) (by simp) (by simp)

/-! ## What an operand holds after it was stored to -/

@[simp] theorem RegMem.after_store (s : State) (z : Size) (v : z.Val) (dst : RegMem) :
    RegMem.after s (RegMem.store s z v dst) z dst = v := by
  cases dst <;> simp [RegMem.after, RegMem.store]

@[simp] theorem RegMem.after_setFlags (s t : State) (f : FlagWrite) (z : Size) (dst : RegMem) :
    RegMem.after s (t.setFlags f) z dst = RegMem.after s t z dst := by
  cases dst <;> simp [RegMem.after]

end Sys2Proof.Machine
end

