-- ==== Sys2Proof/Laws/Alu.lean ====
section
/-! SUPPORT. Laws/Alu.lean: what the flag unit computes, in the terms of `Safety.lean` (`41_arithmetic.md` R260 to R263,
R289; `42_logical_bit.md` R320), and the flags after a register write. -/
namespace Sys2Proof.Machine

/-! ## Sums and differences -/

theorem addFlags_isSum {w : Nat} (a b : BitVec w) (cin : Bool) {t : State} (hz : t.flagZ = (addFlags a b cin).z)
    (hs : t.flagS = (addFlags a b cin).s) (hv : t.flagV = (addFlags a b cin).v) :
    IsSum a b cin (addFlags a b cin).r t where
  result := by simp [addFlags]
  z := by rw [hz]; simp [addFlags]; rfl
  s := by rw [hs]; simp [addFlags, BitVec.msb_eq_getLsbD_last]
  v := by rw [hv]; simp [addFlags, BitVec.msb_eq_getLsbD_last]

theorem addFlags_carry {w : Nat} (a b : BitVec w) (cin : Bool) : (addFlags a b cin).c = sumCarry a b cin := rfl

theorem addFlags_half {w : Nat} (a b : BitVec w) (cin : Bool) :
    (addFlags a b cin).h = sumHalf (halfBits w) a b cin := rfl

theorem subFlags_isDiff {w : Nat} (a b : BitVec w) (cin : Bool) {t : State} (hz : t.flagZ = (subFlags a b cin).z)
    (hs : t.flagS = (subFlags a b cin).s) (hv : t.flagV = (subFlags a b cin).v) :
    IsDiff a b cin (subFlags a b cin).r t where
  result := by
    have hp : (0 : Int) < 2 ^ w := by exact_mod_cast Nat.two_pow_pos w
    simp only [subFlags, BitVec.toNat_ofInt]
    rw [Int.toNat_of_nonneg]
    · push_cast; rfl
    · push_cast; exact Int.emod_nonneg _ (by omega)
  z := by rw [hz]; simp [subFlags]; rfl
  s := by rw [hs]; simp [subFlags, BitVec.msb_eq_getLsbD_last]
  v := by rw [hv]; simp [subFlags, BitVec.msb_eq_getLsbD_last]

theorem subFlags_borrow {w : Nat} (a b : BitVec w) (cin : Bool) : (subFlags a b cin).c = diffBorrow a b cin := by
  simp only [subFlags, diffBorrow, decide_eq_decide]; omega

theorem subFlags_half {w : Nat} (a b : BitVec w) (cin : Bool) :
    (subFlags a b cin).h = diffHalf (halfBits w) a b cin := rfl

@[simp] theorem halfBits_word : halfBits Size.w.bits = 12 := rfl
@[simp] theorem halfBits_byte : halfBits Size.b.bits = 4 := rfl

/-- A compare writes the flags of the difference (`41_arithmetic.md` R274). -/
theorem compare_isCompare {w : Nat} (a b : BitVec w) (s : State) (p : FlagProfile) :
    IsCompare a b (s.setFlags (czsv p (subFlags a b false))) :=
  ⟨⟨_, subFlags_isDiff a b false (by simp [czsv]) (by simp [czsv]) (by simp [czsv])⟩, by simp [czsv, subFlags_borrow]⟩

/-! ## The flag profile -/

theorem docOnly_getD (s : State) (b c : Bool) : (docOnly s.cfg.flags b).getD c = if s.docFlags then b else c := by
  unfold State.docFlags
  cases s.cfg.flags <;> rfl

theorem parity_eq_evenOnes (v : Byte) : parity v = evenOnes v := by revert v; decide

/-! ## Which bits each flag write names -/

theorem czsv_bits {w : Nat} (p : FlagProfile) (o : AluOut w) : (czsv p o).bits = [bitC, bitZ, bitS, bitV] := rfl

theorem wordFlags_bits {w : Nat} (p : FlagProfile) (o : AluOut w) :
    ∀ i ∈ (wordFlags p o).bits, i ∈ [bitC, bitZ, bitS, bitV, bitH] := by
  cases p <;> simp [wordFlags, czsv, FlagWrite.bits, docOnly]

theorem byteAddFlags_bits {w : Nat} (p : FlagProfile) (o : AluOut w) :
    (byteAddFlags p o).bits = [bitC, bitZ, bitS, bitV, bitD, bitH] := rfl

theorem byteSubFlags_bits {w : Nat} (p : FlagProfile) (o : AluOut w) :
    (byteSubFlags p o).bits = [bitC, bitZ, bitS, bitV, bitD, bitH] := rfl

theorem incFlags_bits {w : Nat} (p : FlagProfile) (o : AluOut w) :
    ∀ i ∈ (incFlags p o).bits, i ∈ [bitZ, bitS, bitV, bitH] := by
  cases p <;> simp [incFlags, FlagWrite.bits, docOnly]

theorem logicFlags_bits (p : FlagProfile) (z : Size) (r : z.Val) :
    ∀ i ∈ (logicFlags p z r).bits, i ∈ [bitC, bitZ, bitS, bitV] := by
  cases p <;> cases z <;> simp [logicFlags, FlagWrite.bits, docOnly]

/-! ## Flags after a register write or a store -/

theorem State.flags_setReg (s : State) (z : Size) (n : Reg) (v : z.Val) :
    (s.setReg z n v).flagC = s.flagC ∧ (s.setReg z n v).flagZ = s.flagZ ∧ (s.setReg z n v).flagS = s.flagS ∧
      (s.setReg z n v).flagV = s.flagV ∧ (s.setReg z n v).flagD = s.flagD ∧ (s.setReg z n v).flagH = s.flagH :=
  State.flags_congr (by simp)

theorem State.flags_store (s : State) (z : Size) (v : z.Val) (dst : RegMem) :
    (RegMem.store s z v dst).flagC = s.flagC ∧ (RegMem.store s z v dst).flagZ = s.flagZ ∧
      (RegMem.store s z v dst).flagS = s.flagS ∧ (RegMem.store s z v dst).flagV = s.flagV ∧
      (RegMem.store s z v dst).flagD = s.flagD ∧ (RegMem.store s z v dst).flagH = s.flagH := by
  apply State.flags_congr
  cases dst <;> simp [RegMem.store]

/-! ## Quotients -/

/-- The quotient and remainder of R289 are the truncated ones. -/
theorem quotient_unique {n d q m : Int} (h : IsQuotient n d q m) : n.tdiv d = q ∧ n - q * d = m := by
  obtain ⟨he, hs, hg⟩ := h
  have hd : d ≠ 0 := by rintro rfl; simp at hs
  have hc : d * q = q * d := Int.mul_comm _ _
  refine ⟨?_, by omega⟩
  by_cases hn : 0 ≤ n
  · exact ((Int.tdiv_tmod_unique (r := m) hn hd).2 ⟨by omega, by omega, by omega⟩).1
  · exact ((Int.tdiv_tmod_unique' (r := m) (by omega) hd).2 ⟨by omega, by omega, by omega⟩).1

end Sys2Proof.Machine
end

