-- ==== Sys2Proof/Laws/Block.lean ====
section
/-! SUPPORT. Laws/Block.lean: the pointers and the end of a block iteration (`47_block.md` R500 to R504). -/
namespace Sys2Proof.Machine

variable (s t : State)

theorem pointerStep_eq (z : Size) (down : Bool) : pointerStep z down = pointerMove z down := by
  cases z <;> cases down <;> rfl

theorem State.rw_bump (r n : Reg) (k : Word) : (s.bump r k).rw n = s.rw n + (if n = r then k else 0) := by
  by_cases h : n = r
  · subst h; simp [State.bump]
  · simp [State.bump, State.rw_setRw, h]

theorem State.straight_bump (r : Reg) (k : Word) (sp : Space) : s.Straight (s.bump r k) [r] [] sp [] :=
  s.straight_setRw r _ sp

@[simp] theorem State.sysMode_bump (r : Reg) (k : Word) : (s.bump r k).sysMode = s.sysMode := s.sysMode_setRw r _

@[simp] theorem State.memRead_bump (r : Reg) (k : Word) (sp : Space) (z : Size) (a : Word) :
    (s.bump r k).memRead sp z a = s.memRead sp z a := s.memRead_setRw r _ sp z a

@[simp] theorem State.readByte_bump (r : Reg) (k : Word) (sp : Space) (a : Word) :
    (s.bump r k).readByte sp a = s.readByte sp a := s.readByte_setRw r _ sp a

/-- Two pointers moved one after the other, the registers being possibly the same. -/
theorem State.rw_bump_bump (a b n : Reg) (k : Word) :
    ((s.bump a k).bump b k).rw n = s.rw n + BitVec.ofNat 16 ([a, b].count n) * k := by
  rw [State.rw_bump, State.rw_bump]
  by_cases ha : n = a <;> by_cases hb : n = b
  · subst ha; subst hb; simp; bv_omega
  · subst ha; simp [hb]
  · subst hb; simp [ha, Ne.symm ha]
  · simp [ha, hb, Ne.symm ha, Ne.symm hb]

theorem State.rw_bump_one (a n : Reg) (k : Word) :
    (s.bump a k).rw n = s.rw n + BitVec.ofNat 16 ([a].count n) * k := by
  rw [State.rw_bump]
  by_cases ha : n = a
  · subst ha; simp
  · simp [ha, Ne.symm ha]

/-- The state `blockEnd` answers. -/
def blockEndState (r : Reg) (f : FlagWrite) (again : Bool) : State :=
  let u := (s.bump r (-1)).setFlags { f with v := some ((s.bump r (-1)).rw r == 0) }
  { u with reexec := s.reexec || (again && (s.bump r (-1)).rw r != 0) }

theorem blockEnd_eq (r : Reg) (f : FlagWrite) (again : Bool) :
    blockEnd s r f again = .next (blockEndState s r f again) := by
  have hr : (s.bump r (-1)).reexec = s.reexec := by simp
  simp only [blockEnd, blockEndState]
  generalize s.bump r (-1) = u at *
  rw [← hr]
  by_cases h : u.rw r = 0#16 <;> cases again <;> simp [h, State.setFlags]

/-- The frame of the end of an iteration, `reexec` apart. -/
theorem frameCore_blockEndState (r : Reg) (f : FlagWrite) (again : Bool) (sp : Space) :
    s.FrameCore (blockEndState s r f again) [r] (bitV :: f.bits) sp [] := by
  have h : s.Straight ((s.bump r (-1)).setFlags { f with v := some ((s.bump r (-1)).rw r == 0) }) [r] (bitV :: f.bits)
      sp [] :=
    ((s.straight_bump r (-1) sp).trans (State.straight_setFlags _ _ sp)).mono (by simp)
      (by intro i; simp [FlagWrite.bits]; grind) (by simp)
  exact { regs := h.regs, otherSp := h.otherSp, fcw := h.fcw, mem := h.mem, rest := { h.rest with } }

@[simp] theorem io_blockEndState (r : Reg) (f : FlagWrite) (again : Bool) :
    (blockEndState s r f again).io = s.io := by simp [blockEndState]

@[simp] theorem rw_blockEndState (r : Reg) (f : FlagWrite) (again : Bool) (n : Reg) :
    (blockEndState s r f again).rw n = (s.bump r (-1)).rw n := State.rw_setFlags (s.bump r (-1)) _ n

@[simp] theorem readByte_blockEndState (r : Reg) (f : FlagWrite) (again : Bool) (sp : Space) (a : Word) :
    (blockEndState s r f again).readByte sp a = s.readByte sp a :=
  (frameCore_blockEndState s r f again sp).mem sp a (by simp [Covered])

@[simp] theorem memRead_blockEndState (r : Reg) (f : FlagWrite) (again : Bool) (sp : Space) (z : Size) (a : Word) :
    (blockEndState s r f again).memRead sp z a = s.memRead sp z a :=
  State.memRead_congr (readByte_blockEndState s r f again) (frameCore_blockEndState s r f again sp).rest.cfg _ _ _

theorem flags_blockEndState (r : Reg) (f : FlagWrite) (again : Bool) :
    (blockEndState s r f again).flagC = f.c.getD s.flagC ∧ (blockEndState s r f again).flagZ = f.z.getD s.flagZ ∧
      (blockEndState s r f again).flagS = f.s.getD s.flagS := by
  have h := State.flags_congr (s := (s.bump r (-1)).setFlags { f with v := some ((s.bump r (-1)).rw r == 0) })
    (t := blockEndState s r f again) rfl
  have g := State.flags_congr (s := s) (t := s.bump r (-1)) (by simp)
  obtain ⟨c, z, v, -⟩ := h
  rw [c, z, v, State.flagC_setFlags, State.flagZ_setFlags, State.flagS_setFlags, g.1, g.2.1, g.2.2.1]
  exact ⟨rfl, rfl, rfl⟩

/-- Registers, V, `reexec` and PC at the end of an iteration whose pointers `ps` were moved by `k` (R500, R502). -/
theorem iterated_blockEndState (rw0 : Reg → Word) (ps : List Reg) (k : Word) (r : Reg) (f : FlagWrite) (again : Bool)
    (hrw : ∀ n, t.rw n = rw0 n + BitVec.ofNat 16 (ps.count n) * k) (hre : t.reexec = s.reexec) (hpc : t.pc = s.pc) :
    s.Iterated (blockEndState t r f again) rw0 ps k r again := by
  have hr := rw_blockEndState t r f again
  constructor
  · intro n
    rw [hr, State.rw_bump, hrw]
    simp only [blockDelta]
    split <;> bv_omega
  · rw [hr]
    show ((t.bump r (-1)).setFlags _).flagV = _
    simp only [State.flagV_setFlags, Option.getD_some]
    rfl
  · rw [hr]
    simp only [blockEndState, hre]
    generalize (t.bump r (-1)).rw r = x
    have h : (x != 0) = decide (x ≠ 0) := decide_not.symm
    rw [h]
  · simp [blockEndState, hpc]

end Sys2Proof.Machine
end

