-- ==== Sys2Proof/Laws/DataMove.lean ====
section
/-! SUPPORT. Laws/DataMove.lean: push and pop (`20_memory.md` R87) and the loops of LDM (`40_data_movement.md` R218,
R219). -/
namespace Sys2Proof.Machine

variable (s : State)

/-! ## The stack -/

theorem State.straight_push (r : Reg) (z : Size) (v : z.Val) :
    s.Straight (s.push r z v) [r] [] .prog (accessBytes s.cfg z (s.rw r - z.bytes)) :=
  ((s.straight_setRw r _ .prog).trans (State.straight_memWrite _ .prog z _ v)).mono (by simp) (by simp) (by simp)

@[simp] theorem State.rw_push_same (r : Reg) (z : Size) (v : z.Val) : (s.push r z v).rw r = s.rw r - z.bytes := by
  simp [State.push]

@[simp] theorem State.memRead_push (r : Reg) (z : Size) (v : z.Val) :
    (s.push r z v).memRead .prog z (s.rw r - z.bytes) = v := State.memRead_memWrite_same _ _ _ _ _

theorem State.straight_popped (r : Reg) (z : Size) (sp : Space) : s.Straight (s.popped r z) [r] [] sp [] :=
  s.straight_setRw r _ sp

/-! ## Several registers (LDM) -/

theorem reg_succ_add (d : Reg) (k : Nat) : d + 1 + BitVec.ofNat 4 k = d + BitVec.ofNat 4 (k + 1) := by
  apply BitVec.eq_of_toNat_eq; simp [BitVec.toNat_add]; omega

theorem addr_succ_add (a : Word) (k : Nat) :
    a + 2 + BitVec.ofNat 16 (2 * k) = a + BitVec.ofNat 16 (2 * (k + 1)) := by
  apply BitVec.eq_of_toNat_eq; simp [BitVec.toNat_add]; omega

theorem straight_loadRegs (d : Reg) (a : Word) (n : Nat) :
    s.Straight (loadRegs s d a n) ((List.range n).map fun k => d + BitVec.ofNat 4 k) [] .data [] := by
  induction n generalizing s d a with
  | zero => exact State.Straight.refl _ _
  | succ n ih =>
    refine ((s.straight_setRw d _ .data).trans (ih _ (d + 1) (a + 2))).mono ?_ (by simp) (by simp)
    intro x hx
    rw [List.range_succ_eq_map]
    simp only [reg_succ_add] at hx
    simpa [Function.comp_def] using hx

theorem rw_loadRegs (d : Reg) (a : Word) {n k : Nat} (hn : n ≤ 16) (hk : k < n) :
    (loadRegs s d a n).rw (d + BitVec.ofNat 4 k) = s.readWord .data (a + BitVec.ofNat 16 (2 * k)) := by
  induction n generalizing s d a k with
  | zero => omega
  | succ n ih =>
    cases k with
    | zero =>
      rw [loadRegs, (straight_loadRegs _ (d + 1) (a + 2) n).regs]
      · simp
      · simp only [reg_succ_add, List.mem_map, List.mem_range, not_exists, not_and]
        intro x hx h
        have := congrArg BitVec.toNat h
        simp [BitVec.toNat_add] at this
        omega
    | succ k =>
      rw [loadRegs, ← reg_succ_add, ih _ _ _ (by omega) (by omega), addr_succ_add]
      exact s.memRead_setRw d _ .data .w _

theorem straight_storeRegs (r : Reg) (a : Word) (n : Nat) :
    s.Straight (storeRegs s r a n) [] [] .data
      ((List.range n).flatMap fun k => accessBytes s.cfg .w (a + BitVec.ofNat 16 (2 * k))) := by
  induction n generalizing s r a with
  | zero => exact State.Straight.refl _ _
  | succ n ih =>
    refine ((s.straight_memWrite .data .w a _).trans (ih _ (r + 1) (a + 2))).mono (by simp) (by simp) ?_
    intro x hx
    rw [List.range_succ_eq_map]
    simp only [addr_succ_add, (s.straight_memWrite .data .w a _).rest.cfg] at hx
    simpa [List.flatMap_map] using hx

/-- Words at a distance of 2 to 2^16 - 2 bytes do not overlap. -/
theorem word_apart (c : Config) (a : Word) {k : Nat} (h0 : 0 < k) (hk : k < 2 ^ 15) :
    ∀ b ∈ accessBytes c .w a, b ∉ accessBytes c .w (a + BitVec.ofNat 16 (2 * k)) := by
  have h : wordAddr c (a + BitVec.ofNat 16 (2 * k)) = wordAddr c a + BitVec.ofNat 16 (2 * k) := by
    unfold wordAddr
    split
    · apply BitVec.eq_of_toNat_eq
      rw [BitVec.toNat_add, and_fffe_toNat, and_fffe_toNat, BitVec.toNat_add]
      simp; omega
    · rfl
  intro b hb hc
  simp only [accessBytes, List.mem_cons, List.not_mem_nil, or_false, h] at hb hc
  have e : (BitVec.ofNat 16 (2 * k)).toNat = 2 * k := by simp; omega
  generalize BitVec.ofNat 16 (2 * k) = z at *
  rcases hb with rfl | rfl <;> rcases hc with hc | hc <;> bv_omega

theorem readWord_storeRegs (r : Reg) (a : Word) {n k : Nat} (hn : n ≤ 16) (hk : k < n) :
    (storeRegs s r a n).readWord .data (a + BitVec.ofNat 16 (2 * k)) = s.rw (r + BitVec.ofNat 4 k) := by
  induction n generalizing s r a k with
  | zero => omega
  | succ n ih =>
    cases k with
    | zero =>
      have h := straight_storeRegs (s.writeWord .data a (s.rw r)) (r + 1) (a + 2) n
      have same := State.memRead_of_bytes h.rest.cfg (sp := .data) (z := .w) (a := a) (by
        intro b hb
        apply h.mem
        simp only [Covered, not_and, addr_succ_add, List.mem_flatMap, List.mem_range, not_exists]
        intro _ x hx
        exact word_apart _ _ (by omega) (by omega) b hb)
      simpa [State.memRead, storeRegs, State.readWord_writeWord_same] using same
    | succ k =>
      rw [storeRegs, ← addr_succ_add, ih _ _ _ (by omega) (by omega), reg_succ_add]
      exact s.rw_memWrite .data .w _ _ _

end Sys2Proof.Machine
end

