-- ==== Sys2Proof/Laws/Legal.lean ====
section
/-! SUPPORT. Laws/Legal.lean: the decode checks the meanings make are the well-formedness of the operands
(`30_encoding.md` R116, R118), and what the checks before an instruction's effect answer (`60_exceptions.md` R613). -/
namespace Sys2Proof.Machine

theorem pointerOk_eq_ptrReg (n : Reg) : pointerOk n = ptrReg n := rfl

theorem evenOk_eq_longReg (n : Reg) : evenOk n = longReg n := by revert n; decide

theorem quadOk_eq_quadReg (n : Reg) : quadOk n = quadReg n := by revert n; decide

theorem sizeOk_eq_regWf (z : Size) (n : Reg) : sizeOk z n = z.regWf n := by
  cases z
  · rfl
  · rfl
  · exact evenOk_eq_longReg n

theorem MemOp.legal_eq_wf (m : MemOp) : MemOp.legal m = m.wf := by cases m <;> rfl

theorem RegMem.legal_eq_wf (z : Size) (o : RegMem) : RegMem.legal z o = o.wf z := by
  cases o with
  | reg n => exact sizeOk_eq_regWf z n
  | mem m => exact MemOp.legal_eq_wf m

theorem Src.legal_eq_wf {z : Size} (o : Src z) : Src.legal o = o.wf := by
  cases o with
  | reg n => exact sizeOk_eq_regWf z n
  | imm k => rfl
  | mem m => exact MemOp.legal_eq_wf m

theorem Based.legal_eq_wf (o : Based) : Based.legal o = o.wf := by cases o <;> rfl

theorem LdSrc.legal_eq_wf {z : Size} (o : LdSrc z) : LdSrc.legal o = o.wf := by
  cases o with
  | src o => exact Src.legal_eq_wf o
  | based o => exact Based.legal_eq_wf o

theorem StDst.legal_eq_wf (o : StDst) : StDst.legal o = o.wf := by
  cases o with
  | mem m => exact MemOp.legal_eq_wf m
  | based o => exact Based.legal_eq_wf o

theorem LaSrc.legal_eq_wf (o : LaSrc) : LaSrc.legal o = o.wf := by
  cases o with
  | da _ => rfl
  | x _ _ => rfl
  | based o => exact Based.legal_eq_wf o

variable (s : State)

@[simp] theorem State.checked_true (k : Result) : s.checked true k = k := rfl
@[simp] theorem State.checked_false (k : Result) : s.checked false k = .next (s.takeTrap .ext) := rfl

theorem State.privileged_of_system (h : s.sysMode = true) (k : Result) : s.privileged k = k := by
  simp [State.privileged, h]

theorem State.privileged_of_normal (h : s.sysMode = false) (k : Result) : s.privileged k = .next (s.takeTrap .priv) := by
  simp [State.privileged, h]

/-- What `checked` can answer. -/
theorem State.checked_next {legal : Bool} {k : Result} {t : State} (h : s.checked legal k = .next t) :
    (legal = true ∧ k = .next t) ∨ (legal = false ∧ t = s.takeTrap .ext) := by
  cases legal
  · exact .inr ⟨rfl, by simpa using h.symm⟩
  · exact .inl ⟨rfl, h⟩

/-- What `privileged` can answer. -/
theorem State.privileged_next {k : Result} {t : State} (h : s.privileged k = .next t) :
    (s.sysMode = true ∧ k = .next t) ∨ (s.sysMode = false ∧ t = s.takeTrap .priv) := by
  cases hm : s.sysMode
  · rw [s.privileged_of_normal hm] at h; exact .inr ⟨rfl, by simpa using h.symm⟩
  · rw [s.privileged_of_system hm] at h; exact .inl ⟨rfl, h⟩

end Sys2Proof.Machine
end

