-- ==== Sys2Proof/Laws/StepCases.lean ====
section
/-! SUPPORT. Laws/StepCases.lean: everything a step can do, said once (`60_exceptions.md` R611, R630;
`70_reset_and_hazards.md` R721). -/
namespace Sys2Proof.Machine

variable {s t : State}

theorem mapNext_eq_next {f : State → State} {r : Result} (h : mapNext f r = .next t) : ∃ u, r = .next u ∧ t = f u := by
  cases r with
  | next u => exact ⟨u, rfl, by simpa [mapNext] using h.symm⟩
  | fault r => simp [mapNext] at h
  | refused r => simp [mapNext] at h

/-- What running an instruction can answer: the RESET word, an unassigned word, or the meaning of a decoded
instruction followed by the rewind of a block iteration. -/
theorem runInstr_cases (h : runInstr s = .next t) :
    (isResetWord s.cfg (s.readWord .prog s.pc) = true ∧ execReset (s.advance 1) = .next t) ∨
    (isResetWord s.cfg (s.readWord .prog s.pc) = false ∧ (∃ why, decode (bytesOf s.fetchWords) = .rejected why) ∧
      t = (s.advance 1).takeTrap .ext) ∨
    (isResetWord s.cfg (s.readWord .prog s.pc) = false ∧ ∃ i rest u, decode (bytesOf s.fetchWords) = .ok i rest ∧
      exec i (s.advance i.words) = .next u ∧ t = u.rewind s.pc) := by
  unfold runInstr at h
  split at h
  · rename_i hr
    exact .inl ⟨hr, h⟩
  · rename_i hr
    have hr : isResetWord s.cfg (s.readWord .prog s.pc) = false := by simpa using hr
    split at h
    · rename_i i rest hd
      obtain ⟨u, hu, rfl⟩ := mapNext_eq_next h
      exact .inr (.inr ⟨hr, i, rest, u, hd, hu, rfl⟩)
    · rename_i why hd
      exact .inr (.inl ⟨hr, ⟨why, hd⟩, by simpa using h.symm⟩)

/-- What a step can answer: an interrupt entry, an idle step, or one instruction; each counts its cycles. -/
theorem step_cases (h : step s = .next t) :
    (∃ k, s.acceptable = some k ∧ t = (s.takeTrap k).tick s.stepBus) ∨
    (s.acceptable = none ∧ s.halt = true ∧ t = s.tick s.stepBus) ∨
    (s.acceptable = none ∧ s.halt = false ∧ ∃ u, runInstr s = .next u ∧ t = u.tick s.stepBus) := by
  unfold step stepOnce at h
  split at h
  · rename_i k hk
    exact .inl ⟨k, hk, by simpa using h.symm⟩
  · rename_i hn
    split at h
    · rename_i hh
      exact .inr (.inl ⟨hn, hh, by simpa using h.symm⟩)
    · rename_i hh
      obtain ⟨u, hu, rfl⟩ := mapNext_eq_next h
      exact .inr (.inr ⟨hn, by simpa using hh, u, hu, rfl⟩)

/-- Which interrupt is acceptable (R611). -/
theorem acceptable_cases (s : State) :
    (s.nmiPending = true ∧ s.acceptable = some .nmi) ∨
    (s.nmiPending = false ∧ (s.viReq && s.vie) = true ∧ s.acceptable = some .vi) ∨
    (s.nmiPending = false ∧ (s.viReq && s.vie) = false ∧ (s.nviReq && s.nvie) = true ∧ s.acceptable = some .nvi) ∨
    (s.nmiPending = false ∧ (s.viReq && s.vie) = false ∧ (s.nviReq && s.nvie) = false ∧ s.acceptable = none) := by
  unfold State.acceptable
  cases s.nmiPending <;> cases (s.viReq && s.vie) <;> cases (s.nviReq && s.nvie) <;> simp

end Sys2Proof.Machine
end

