-- ==== Sys2Proof/Laws/Keeps.lean ====
section
/-! SUPPORT. Laws/Keeps.lean: what every update of the machine keeps (the parameters, the stop flag, the canonical form
of the memories, PSAP within its mask), said of each shared operation; an instruction's is the composition. -/
namespace Sys2Proof.Machine

/-- `t` keeps what `State.Inv` asks of `s`, `reexec` apart, and the parameters and the stop flag. -/
structure State.Keeps (s t : State) : Prop where
  cfg : t.cfg = s.cfg
  stop : t.stop = s.stop
  wf : s.prog.wf = true → s.data.wf = true → t.prog.wf = true ∧ t.data.wf = true
  psap : maskPsap s.cfg.psapMask s.psap = s.psap → maskPsap t.cfg.psapMask t.psap = t.psap

variable {s t u : State}

theorem State.Keeps.refl (s : State) : s.Keeps s := ⟨rfl, rfl, fun h k => ⟨h, k⟩, id⟩

theorem State.Keeps.trans (h : s.Keeps t) (k : t.Keeps u) : s.Keeps u where
  cfg := k.cfg.trans h.cfg
  stop := k.stop.trans h.stop
  wf hp hd := k.wf (h.wf hp hd).1 (h.wf hp hd).2
  psap hs := k.psap (h.psap hs)

/-- An update that leaves these fields alone. -/
theorem State.Keeps.of_eq (hc : t.cfg = s.cfg) (hs : t.stop = s.stop) (hp : t.prog = s.prog) (hd : t.data = s.data)
    (ha : t.psap = s.psap) : s.Keeps t :=
  ⟨hc, hs, fun h k => by rw [hp, hd]; exact ⟨h, k⟩, fun h => by rw [hc, ha]; exact h⟩

theorem State.keeps_setReg (s : State) (z : Size) (n : Reg) (v : z.Val) : s.Keeps (s.setReg z n v) :=
  .of_eq (by simp) (by simp) (by simp) (by simp) (by simp)

theorem State.keeps_setRw (s : State) (n : Reg) (v : Word) : s.Keeps (s.setRw n v) := s.keeps_setReg .w n v

theorem State.keeps_setRb (s : State) (n : Reg) (v : Byte) : s.Keeps (s.setRb n v) := s.keeps_setReg .b n v

theorem State.keeps_setRr (s : State) (n : Reg) (v : Long) : s.Keeps (s.setRr n v) := s.keeps_setReg .l n v

theorem State.keeps_setRq (s : State) (n : Reg) (v : Quad) : s.Keeps (s.setRq n v) :=
  (s.keeps_setRr n _).trans (State.keeps_setRr _ _ _)

theorem State.keeps_setFlags (s : State) (f : FlagWrite) : s.Keeps (s.setFlags f) := .of_eq rfl rfl rfl rfl rfl

theorem State.keeps_setPc (s : State) (a : Word) : s.Keeps (s.setPc a) := .of_eq rfl rfl rfl rfl rfl

theorem State.keeps_writeFcw (s : State) (v : Word) : s.Keeps (s.writeFcw v) := .of_eq rfl rfl rfl rfl rfl

theorem State.keeps_memWrite (s : State) (sp : Space) (z : Size) (a : Word) (v : z.Val) : s.Keeps (s.memWrite sp z a v) where
  cfg := by simp
  stop := by simp
  wf hp hd := s.memWrite_keeps_wf sp z a v hp hd
  psap h := by simpa using h

theorem State.keeps_store (s : State) (z : Size) (v : z.Val) (dst : RegMem) : s.Keeps (RegMem.store s z v dst) := by
  cases dst with
  | reg n => exact s.keeps_setReg z n v
  | mem m => exact s.keeps_memWrite .data z _ v

theorem State.keeps_push (s : State) (r : Reg) (z : Size) (v : z.Val) : s.Keeps (s.push r z v) :=
  (s.keeps_setRw r _).trans (State.keeps_memWrite _ _ _ _ _)

theorem State.keeps_popped (s : State) (r : Reg) (z : Size) : s.Keeps (s.popped r z) := s.keeps_setRw r _

theorem State.keeps_bump (s : State) (r : Reg) (k : Word) : s.Keeps (s.bump r k) := s.keeps_setRw r _

theorem State.keeps_loadRegs (s : State) (d : Reg) (a : Word) (n : Nat) : s.Keeps (loadRegs s d a n) := by
  induction n generalizing s d a with
  | zero => exact .refl s
  | succ n ih => exact (s.keeps_setRw d _).trans (ih _ _ _)

theorem State.keeps_storeRegs (s : State) (r : Reg) (a : Word) (n : Nat) : s.Keeps (storeRegs s r a n) := by
  induction n generalizing s r a with
  | zero => exact .refl s
  | succ n ih => exact (s.keeps_memWrite .data .w a _).trans (ih _ _ _)

theorem State.keeps_pushSystem (s : State) (v : Word) : s.Keeps (s.pushSystem v) :=
  (State.Keeps.of_eq (s := s) (t := { s with ssp := s.ssp - 2 }) rfl rfl rfl rfl rfl).trans
    (State.keeps_memWrite _ .prog .w _ _)

theorem State.keeps_takeTrap (s : State) (k : Trap) : s.Keeps (s.takeTrap k) := by
  have h : s.Keeps (s.pushFrame s.pc (k.ident s)) := by
    cases k.ident s with
    | none => exact (s.keeps_pushSystem _).trans (State.keeps_pushSystem _ _)
    | some w => exact ((s.keeps_pushSystem _).trans (State.keeps_pushSystem _ _)).trans (State.keeps_pushSystem _ _)
  exact h.trans (by cases k <;> exact .of_eq rfl rfl rfl rfl rfl)

theorem State.keeps_returnFromTrap (s : State) : s.Keeps s.returnFromTrap :=
  (s.keeps_setRw 15 _).trans (.of_eq rfl rfl rfl rfl rfl)

theorem State.keeps_resetSequence (s : State) : s.Keeps s.resetSequence :=
  ⟨rfl, rfl, fun h k => ⟨h, k⟩, fun _ => by
    show maskPsap s.cfg.psapMask 0 = 0
    cases s.cfg.psapMask <;> rfl⟩

theorem maskPsap_idem (m : PsapMask) (v : Word) : maskPsap m (maskPsap m v) = maskPsap m v := by
  cases m
  · rfl
  · apply BitVec.eq_of_getLsbD_eq
    intro i _
    simp [maskPsap]

theorem State.keeps_writeCtl (s : State) (v : Word) (k : Ctl) : s.Keeps (writeCtl s v k) := by
  cases k
  · exact .of_eq rfl rfl rfl rfl rfl
  · exact .of_eq rfl rfl rfl rfl rfl
  · exact ⟨rfl, rfl, fun h k => ⟨h, k⟩, fun _ => maskPsap_idem _ _⟩
  · exact .of_eq rfl rfl rfl rfl rfl

theorem State.keeps_blockEndState (s : State) (r : Reg) (f : FlagWrite) (again : Bool) :
    s.Keeps (blockEndState s r f again) :=
  (s.keeps_bump r (-1)).trans (.of_eq rfl rfl rfl rfl rfl)

/-! ## Results -/

/-- Every next state a result can answer keeps `s`. -/
def Result.Keeps (s : State) (r : Result) : Prop := ∀ t, r = .next t → s.Keeps t

theorem Result.keeps_next (h : s.Keeps t) : Result.Keeps s (.next t) := by
  intro u hu
  cases hu
  exact h

theorem Result.keeps_refused (why : Refusal) : Result.Keeps s (.refused why) := by
  intro u hu
  cases hu

theorem State.keeps_checked {legal : Bool} {k : Result} (h : Result.Keeps s k) : Result.Keeps s (s.checked legal k) := by
  cases legal
  · exact Result.keeps_next (s.keeps_takeTrap .ext)
  · exact h

theorem State.keeps_privileged {k : Result} (h : Result.Keeps s k) : Result.Keeps s (s.privileged k) := by
  cases hm : s.sysMode
  · rw [s.privileged_of_normal hm]; exact Result.keeps_next (s.keeps_takeTrap .priv)
  · rw [s.privileged_of_system hm]; exact h

theorem State.keeps_blockEnd (h : s.Keeps t) (r : Reg) (f : FlagWrite) (again : Bool) :
    Result.Keeps s (blockEnd t r f again) := by
  rw [blockEnd_eq]
  exact Result.keeps_next (h.trans (t.keeps_blockEndState r f again))

end Sys2Proof.Machine
end

