-- ==== Sys2Proof/Laws/Trap.lean ====
section
/-! SUPPORT. Laws/Trap.lean: everything a trap or interrupt entry does, said once (`60_exceptions.md` R620 to R625). -/
namespace Sys2Proof.Machine

variable (s : State)

/-- A push on the system stack: SSP, the stored word, and the bytes it leaves alone. -/
theorem State.readByte_pushSystem_of_not_covered {sp : Space} {a : Word} (v : Word)
    (h : ¬ Covered s.cfg .prog (accessBytes s.cfg .w (s.ssp - 2)) sp a) :
    (s.pushSystem v).readByte sp a = s.readByte sp a :=
  State.readByte_memWrite_of_not_covered (s := { s with ssp := s.ssp - 2 }) (z := .w) v h

@[simp] theorem State.ssp_pushSystem (v : Word) : (s.pushSystem v).ssp = s.ssp - 2 := by
  simp [State.pushSystem]

theorem State.readWord_pushSystem_same (v : Word) : (s.pushSystem v).readWord .prog (s.ssp - 2) = v :=
  State.readWord_writeWord_same _ _ _ _

/-- A push keeps every word of PROG whose bytes it does not cover. -/
theorem State.readWord_pushSystem_of_apart {a : Word} (v : Word)
    (h : ∀ b ∈ accessBytes s.cfg .w a, b ∉ accessBytes s.cfg .w (s.ssp - 2)) :
    (s.pushSystem v).readWord .prog a = s.readWord .prog a := by
  apply State.memRead_of_bytes (z := .w) (by simp)
  intro b hb
  exact s.readByte_pushSystem_of_not_covered v (fun hc => h b hb hc.2)

theorem wordAddr_sub (c : Config) (a : Word) : wordAddr c (a - 2) = wordAddr c a - 2 := by
  have h := wordAddr_add_two c (a - 2)
  have e : a - 2 + 2 = a := by bv_omega
  rw [e] at h
  rw [h]
  bv_omega

theorem words_apart (c : Config) (a : Word) (k : Word) (h1 : k ≠ 0) (h2 : k ≠ 1) (h3 : k ≠ 0xFFFF)
    (hw : wordAddr c (a + k) = wordAddr c a + k) :
    ∀ b ∈ accessBytes c .w (a + k), b ∉ accessBytes c .w a := by
  intro b hb hc
  simp only [accessBytes, List.mem_cons, List.not_mem_nil, or_false, hw] at hb hc
  generalize wordAddr c a = w at *
  rcases hb with rfl | rfl <;> rcases hc with hc | hc <;> bv_omega

/-- The frame after its two pushes (R620, R623). -/
theorem State.frame_two (u v : Word) :
    ((s.pushSystem u).pushSystem v).readWord .prog (s.ssp - 4) = v ∧
      ((s.pushSystem u).pushSystem v).readWord .prog (s.ssp - 4 + 2) = u := by
  have e1 : s.ssp - 4 = (s.pushSystem u).ssp - 2 := by simp; bv_omega
  have e2 : s.ssp - 4 + 2 = s.ssp - 2 := by bv_omega
  constructor
  · rw [e1]; exact State.readWord_pushSystem_same _ _
  · rw [e2, State.readWord_pushSystem_of_apart, State.readWord_pushSystem_same]
    have e3 : s.ssp - 2 = (s.pushSystem u).ssp - 2 + 2 := by simp
    rw [e3]
    exact words_apart _ _ 2 (by decide) (by decide) (by decide) (wordAddr_add_two _ _)

/-- The frame after its three pushes (R620, R623). -/
theorem State.frame_three (u v w : Word) :
    (((s.pushSystem u).pushSystem v).pushSystem w).readWord .prog (s.ssp - 6) = w ∧
      (((s.pushSystem u).pushSystem v).pushSystem w).readWord .prog (s.ssp - 6 + 2) = v ∧
      (((s.pushSystem u).pushSystem v).pushSystem w).readWord .prog (s.ssp - 6 + 4) = u := by
  have f := s.frame_two u v
  have e1 : s.ssp - 6 = ((s.pushSystem u).pushSystem v).ssp - 2 := by simp; bv_omega
  have e2 : s.ssp - 6 + 2 = s.ssp - 4 := by bv_omega
  have e4 : s.ssp - 6 + 4 = s.ssp - 4 + 2 := by bv_omega
  have c : ((s.pushSystem u).pushSystem v).cfg = s.cfg := by simp
  refine ⟨by rw [e1]; exact State.readWord_pushSystem_same _ _, ?_, ?_⟩
  · rw [e2, State.readWord_pushSystem_of_apart, f.1]
    rw [← e1, c, ← e2]
    exact words_apart _ _ 2 (by decide) (by decide) (by decide) (wordAddr_add_two _ _)
  · rw [e4, State.readWord_pushSystem_of_apart, f.2]
    rw [← e1, c, ← e4]
    refine words_apart _ _ 4 (by decide) (by decide) (by decide) ?_
    have h1 := wordAddr_add_two s.cfg (s.ssp - 6)
    have h2 := wordAddr_add_two s.cfg (s.ssp - 6 + 2)
    have e5 : s.ssp - 6 + 2 + 2 = s.ssp - 6 + 4 := by bv_omega
    rw [e5, h1] at h2
    rw [h2]; bv_omega

/-- What the push of a frame does. -/
theorem State.frameAt_pushFrame (id : Option Word) :
    (s.pushFrame s.pc id).ssp = s.ssp - (if id.isSome then 6 else 4) ∧
      (s.pushFrame s.pc id).FrameAt s.pc s.fcw id := by
  have h4 : s.ssp - 2 - 2 = s.ssp - 4 := by bv_omega
  have h6 : s.ssp - 2 - 2 - 2 = s.ssp - 6 := by bv_omega
  cases id with
  | none =>
    have h : (s.pushFrame s.pc none).ssp = s.ssp - 4 := by simpa [State.pushFrame] using h4
    refine ⟨by simpa using h, ?_⟩
    simp only [State.FrameAt, h]
    exact s.frame_two s.fcw s.pc
  | some w =>
    have h : (s.pushFrame s.pc (some w)).ssp = s.ssp - 6 := by simpa [State.pushFrame] using h6
    refine ⟨by simpa using h, ?_⟩
    simp only [State.FrameAt, h]
    exact s.frame_three s.fcw s.pc w

theorem State.readByte_pushFrame_of_not_covered (id : Option Word) {sp : Space} {a : Word}
    (h : ¬ Covered s.cfg .prog (frameBytes s.cfg s.ssp id) sp a) :
    (s.pushFrame s.pc id).readByte sp a = s.readByte sp a := by
  have h4 : s.ssp - 2 - 2 = s.ssp - 4 := by bv_omega
  have h6 : s.ssp - 2 - 2 - 2 = s.ssp - 6 := by bv_omega
  have mono : ∀ l : List Word, (∀ x ∈ l, x ∈ frameBytes s.cfg s.ssp id) → ¬ Covered s.cfg .prog l sp a :=
    fun l hl hc => h (hc.mono hl)
  cases id with
  | none =>
    rw [State.pushFrame, State.readByte_pushSystem_of_not_covered, State.readByte_pushSystem_of_not_covered]
    · exact mono _ (by simp +contextual [frameBytes])
    · have := mono (accessBytes s.cfg .w (s.ssp - 4)) (by simp +contextual [frameBytes])
      rw [← h4] at this
      simpa using this
  | some w =>
    rw [State.pushFrame, State.readByte_pushSystem_of_not_covered, State.readByte_pushSystem_of_not_covered,
      State.readByte_pushSystem_of_not_covered]
    · exact mono _ (by simp +contextual [frameBytes])
    · have := mono (accessBytes s.cfg .w (s.ssp - 4)) (by simp +contextual [frameBytes])
      rw [← h4] at this
      simpa using this
    · have := mono (accessBytes s.cfg .w (s.ssp - 6)) (by simp +contextual [frameBytes])
      rw [← h6] at this
      simpa using this

/-- Memory and parameters after `loadVector` and `clearLatch`. -/
theorem State.readByte_takeTrap (k : Trap) (sp : Space) (a : Word) :
    (s.takeTrap k).readByte sp a = (s.pushFrame s.pc (k.ident s)).readByte sp a :=
  State.readByte_congr (by cases k <;> rfl) (by cases k <;> rfl) (by cases k <;> rfl) _ _

theorem State.readWord_takeTrap (k : Trap) (sp : Space) (a : Word) :
    (s.takeTrap k).readWord sp a = (s.pushFrame s.pc (k.ident s)).readWord sp a :=
  State.readWord_congr (s.readByte_takeTrap k) (by cases k <;> rfl) _ _

/-- The whole entry, for every kind: the vector addresses and the identifier as `Machine/Ops.lean` computes them. -/
theorem State.entered_takeTrap (k : Trap) :
    s.Entered (s.takeTrap k) (s.vectorFcwAddr k) (s.vectorPcAddr k) (k.ident s) := by
  have hp : ∀ id, (s.pushFrame s.pc id).psap = s.psap ∧ (s.pushFrame s.pc id).cfg = s.cfg ∧
      (s.pushFrame s.pc id).viVector = s.viVector ∧ (s.pushFrame s.pc id).regs = s.regs ∧
      (s.pushFrame s.pc id).nsp = s.nsp ∧ (s.pushFrame s.pc id).refresh = s.refresh ∧
      (s.pushFrame s.pc id).nmiLine = s.nmiLine ∧ (s.pushFrame s.pc id).mi = s.mi ∧
      (s.pushFrame s.pc id).cycles = s.cycles ∧ (s.pushFrame s.pc id).reexec = s.reexec ∧
      (s.pushFrame s.pc id).stop = s.stop ∧ (s.pushFrame s.pc id).io = s.io ∧
      (s.pushFrame s.pc id).bus = s.bus ∧ (s.pushFrame s.pc id).draws = s.draws := by
    intro id
    cases id <;> simp [State.pushFrame]
  obtain ⟨h1, h2, h3, h4, h5, h6, h7, h8, h9, h10, h11, h12, h12b, h13⟩ := hp (k.ident s)
  obtain ⟨hs, hf⟩ := s.frameAt_pushFrame (k.ident s)
  have hssp : (s.takeTrap k).ssp = (s.pushFrame s.pc (k.ident s)).ssp := by cases k <;> rfl
  have hva : (s.pushFrame s.pc (k.ident s)).vectorFcwAddr k = s.vectorFcwAddr k := by
    simp [State.vectorFcwAddr, h1]
  have hvp : (s.pushFrame s.pc (k.ident s)).vectorPcAddr k = s.vectorPcAddr k := by
    cases k <;> simp only [State.vectorPcAddr, h1, h2, h3]
  constructor
  · rw [s.readWord_takeTrap, ← hva]; cases k <;> rfl
  · rw [s.readWord_takeTrap, ← hvp]; cases k <;> rfl
  · rw [hssp, hs]
  · generalize hid : k.ident s = id at *
    cases id <;> simpa only [State.FrameAt, s.readWord_takeTrap, hid, hssp] using hf
  · intro sp a ha
    rw [s.readByte_takeTrap]
    exact s.readByte_pushFrame_of_not_covered _ ha
  · cases k <;> rfl
  · rw [← h4]; cases k <;> rfl
  · rw [← h5]; cases k <;> rfl
  · rw [← h1]; cases k <;> rfl
  · rw [← h6]; cases k <;> rfl
  · rw [← h3]; cases k <;> rfl
  · rw [← h7]; cases k <;> rfl
  · rw [← h8]; cases k <;> rfl
  · rw [← h9]; cases k <;> rfl
  · rw [← h10]; cases k <;> rfl
  · rw [← h11]; cases k <;> rfl
  · rw [← h12]; cases k <;> rfl
  · rw [← h12b]; cases k <;> rfl
  · rw [← h13]; cases k <;> rfl
  · rw [← h2]; cases k <;> rfl

/-- The latches after an entry (R625). -/
theorem State.latches_takeTrap (k : Trap) :
    (s.takeTrap k).nmiPending = (s.nmiPending && k != .nmi) ∧ (s.takeTrap k).viReq = (s.viReq && k != .vi) ∧
      (s.takeTrap k).nviReq = (s.nviReq && k != .nvi) := by
  have hp : ∀ id, (s.pushFrame s.pc id).nmiPending = s.nmiPending ∧ (s.pushFrame s.pc id).viReq = s.viReq ∧
      (s.pushFrame s.pc id).nviReq = s.nviReq := by
    intro id
    cases id <;> simp [State.pushFrame]
  cases k <;> simp [State.takeTrap, State.clearLatch, State.loadVector, hp]

end Sys2Proof.Machine
end

