-- ==== Sys2Proof/Laws/Bus.lean ====
section
/-! SUPPORT. Laws/Bus.lean: what the lists of bus accesses hold (`20_memory.md` R100), and that every shared operation changes
only bytes that its accesses write; an instruction's is the composition. -/
namespace Sys2Proof.Machine

/-! ## The accesses of one memory operation -/

section
variable (c : Config) (k : AccessKind) (sp : Space) (w : Bool) (z : Size) (a : Word)

@[simp] theorem memAccess_stack :
    (memAccess c k sp w z a).filter (fun x => x.kind == .stack) = if k = .stack then memAccess c k sp w z a else [] := by
  cases z <;> cases k <;> rfl

@[simp] theorem memAccess_ports : (memAccess c k sp w z a).filter BusAccess.isPort = [] := by cases z <;> rfl

theorem kind_of_mem_memAccess {x : BusAccess} (h : x ∈ memAccess c k sp w z a) : x.kind = k := by
  cases z <;> simp [memAccess] at h
  · rw [h]
  · rw [h]
  · rcases h with h | h <;> rw [h]

theorem write_of_mem_memAccess {x : BusAccess} (h : x ∈ memAccess c k sp w z a) : x.write = w := by
  cases z <;> simp [memAccess] at h
  · rw [h]
  · rw [h]
  · rcases h with h | h <;> rw [h]

/-- The bytes of a write are those its bus accesses write. -/
theorem exists_stores_of_covered {sp' : Space} {b : Word} (h : Covered c sp (accessBytes c z a) sp' b) :
    ∃ x ∈ memAccess c k sp true z a, x.Stores c sp' b := by
  obtain ⟨hs, hb⟩ := h
  cases z with
  | b => exact ⟨_, List.mem_singleton.2 rfl, rfl, sp, rfl, hs, hb⟩
  | w => exact ⟨_, List.mem_singleton.2 rfl, rfl, sp, rfl, hs, hb⟩
  | l =>
    have hb : b ∈ [wordAddr c a, wordAddr c a + 1] ∨ b ∈ [wordAddr c (a + 2), wordAddr c (a + 2) + 1] := by
      simp [accessBytes] at hb ⊢; tauto
    rcases hb with hb | hb
    · exact ⟨_, List.mem_cons_self, rfl, sp, rfl, hs, hb⟩
    · exact ⟨_, List.mem_cons_of_mem _ (List.mem_singleton.2 rfl), rfl, sp, rfl, hs, hb⟩

end

/-! ## Updates and the accesses they make -/

/-- From `s` to `t` the accesses `acc` were made; `State.Recorded` without the field `bus`, which the step writes. -/
structure State.Made (s t : State) (acc : List BusAccess) : Prop where
  cfg : t.cfg = s.cfg
  bus : t.bus = s.bus
  mem : ∀ sp a, (∀ x ∈ acc, ¬ x.Stores s.cfg sp a) → t.readByte sp a = s.readByte sp a
  ports : t.io.map IoAccess.onBus = s.io.map IoAccess.onBus ++ acc.filter BusAccess.isPort

variable {s t u : State}

theorem State.Made.refl (s : State) : s.Made s [] := ⟨rfl, rfl, fun _ _ _ => rfl, by simp⟩

theorem State.Made.trans {acc acc' : List BusAccess} (h : s.Made t acc) (k : t.Made u acc') : s.Made u (acc ++ acc') where
  cfg := k.cfg.trans h.cfg
  bus := k.bus.trans h.bus
  mem sp a hx := by
    rw [k.mem sp a, h.mem sp a]
    · exact fun x hm => hx x (by simp [hm])
    · rw [h.cfg]; exact fun x hm => hx x (by simp [hm])
  ports := by rw [k.ports, h.ports, List.filter_append, List.append_assoc]

/-- An update that leaves memory and ports alone. -/
theorem State.Made.of_eq (hc : t.cfg = s.cfg) (hb : t.bus = s.bus) (hp : t.prog = s.prog) (hd : t.data = s.data)
    (hi : t.io = s.io) : s.Made t [] :=
  ⟨hc, hb, fun sp a _ => by cases sp <;> simp [State.readByte, State.mem, State.home, hc, hp, hd], by simp [hi]⟩

/-- Accesses that write no memory and go to no port change nothing. -/
theorem State.made_reads {acc : List BusAccess} (hp : acc.filter BusAccess.isPort = []) : s.Made s acc :=
  ⟨rfl, rfl, fun _ _ _ => rfl, by simp [hp]⟩

theorem State.made_memWrite (s : State) (k : AccessKind) (sp : Space) (z : Size) (a : Word) (v : z.Val) :
    s.Made (s.memWrite sp z a v) (memAccess s.cfg k sp true z a) where
  cfg := by simp
  bus := by simp
  mem sp' b hx := s.readByte_memWrite_of_not_covered v (fun hc =>
    let ⟨x, hm, hs⟩ := exists_stores_of_covered s.cfg k sp z a hc
    hx x hm hs)
  ports := by simp

theorem State.made_setReg (s : State) (z : Size) (n : Reg) (v : z.Val) : s.Made (s.setReg z n v) [] :=
  .of_eq (by simp) (by simp) (by simp) (by simp) (by simp)

theorem State.made_setRw (s : State) (n : Reg) (v : Word) : s.Made (s.setRw n v) [] := s.made_setReg .w n v

theorem State.made_setRb (s : State) (n : Reg) (v : Byte) : s.Made (s.setRb n v) [] := s.made_setReg .b n v

theorem State.made_setRr (s : State) (n : Reg) (v : Long) : s.Made (s.setRr n v) [] := s.made_setReg .l n v

theorem State.made_setRq (s : State) (n : Reg) (v : Quad) : s.Made (s.setRq n v) [] :=
  (s.made_setRr n _).trans (State.made_setRr _ _ _)

theorem State.made_setFlags (s : State) (f : FlagWrite) : s.Made (s.setFlags f) [] := .of_eq rfl rfl rfl rfl rfl

theorem State.made_store (s : State) (z : Size) (v : z.Val) (dst : RegMem) :
    s.Made (RegMem.store s z v dst) (RegMem.writes s z dst) := by
  cases dst with
  | reg n => exact s.made_setReg z n v
  | mem m => exact s.made_memWrite .data .data z _ v

@[simp] theorem RegMem.ports_reads (s : State) (z : Size) (m : RegMem) :
    (RegMem.reads s z m).filter BusAccess.isPort = [] := by
  cases m <;> simp [RegMem.reads, State.reads]

@[simp] theorem Src.ports_reads {z : Size} (s : State) (o : Src z) : (Src.reads s o).filter BusAccess.isPort = [] := by
  cases o <;> simp [Src.reads, State.reads]

@[simp] theorem LdSrc.ports_reads {z : Size} (s : State) (o : LdSrc z) : (LdSrc.reads s o).filter BusAccess.isPort = [] := by
  cases o <;> simp [LdSrc.reads, State.reads]

/-- An operand read, then written (`20_memory.md` R91). -/
theorem State.made_update (s : State) (z : Size) (v : z.Val) (dst : RegMem) :
    s.Made (RegMem.store s z v dst) (RegMem.updates s z dst) :=
  (State.made_reads (by simp)).trans (s.made_store z v dst)

theorem State.made_push (s : State) (r : Reg) (z : Size) (v : z.Val) :
    s.Made (s.push r z v) (s.stackWrites z (s.rw r - z.bytes)) := by
  have h := State.made_memWrite (s.setRw r (s.rw r - z.bytes)) .stack .prog z (s.rw r - z.bytes) v
  rw [State.setRw_cfg] at h
  exact (s.made_setRw r _).trans h

theorem State.made_pushSystem (s : State) (v : Word) : s.Made (s.pushSystem v) (s.stackWrites .w (s.ssp - 2)) :=
  (State.Made.of_eq (s := s) (t := { s with ssp := s.ssp - 2 }) rfl rfl rfl rfl rfl).trans
    (State.made_memWrite _ .stack .prog .w _ v)

/-- A trap or interrupt entry makes the accesses `State.trapBus` lists (`60_exceptions.md` R620). -/
theorem State.made_takeTrap (s : State) (k : Trap) : s.Made (s.takeTrap k) (s.trapBus k) := by
  have h2 : ∀ v w, s.Made ((s.pushSystem v).pushSystem w) (s.stackWrites .w (s.ssp - 2) ++ s.stackWrites .w (s.ssp - 4)) := by
    intro v w
    have h := (s.made_pushSystem v).trans (State.made_pushSystem (s.pushSystem v) w)
    have e : s.ssp - 2 - 2 = s.ssp - 4 := by bv_omega
    simp only [State.stackWrites, State.pushSystem_ssp, State.pushSystem_cfg, e] at h
    exact h
  have hf : s.Made (s.pushFrame s.pc (k.ident s)) (s.stackWrites .w (s.ssp - 2) ++ s.stackWrites .w (s.ssp - 4) ++
      (if (k.ident s).isSome then s.stackWrites .w (s.ssp - 6) else [])) := by
    cases k.ident s with
    | none => simpa [State.pushFrame] using h2 s.fcw s.pc
    | some id =>
      have h := (h2 s.fcw s.pc).trans (State.made_pushSystem _ id)
      have e : s.ssp - 2 - 2 - 2 = s.ssp - 6 := by bv_omega
      simp only [State.stackWrites, State.pushSystem_ssp, State.pushSystem_cfg, e] at h
      exact h
  have hl : (s.pushFrame s.pc (k.ident s)).Made (s.takeTrap k) [] := by cases k <;> exact .of_eq rfl rfl rfl rfl rfl
  have hr : (s.takeTrap k).Made (s.takeTrap k) (memAccess s.cfg .data .prog false .w (s.vectorFcwAddr k) ++
      memAccess s.cfg .data .prog false .w (s.vectorPcAddr k)) := State.made_reads (by simp)
  have h := (hf.trans hl).trans hr
  rwa [List.append_nil, ← List.append_assoc] at h

theorem State.made_blockEndState (s : State) (r : Reg) (f : FlagWrite) (again : Bool) :
    s.Made (blockEndState s r f again) [] :=
  (s.made_setRw r _).trans (.of_eq (by rfl) (by rfl) (by rfl) (by rfl) (by rfl))

@[simp] theorem portAccess_ports (ios : IoSpace) (w : Bool) (z : Size) (p : Word) :
    (portAccess ios w z p).filter BusAccess.isPort = portAccess ios w z p := rfl

theorem State.made_noteRead (s : State) (z : Size) (ios : IoSpace) (p : Word) :
    s.Made (s.noteRead z ios p) (portAccess ios false z p) where
  cfg := rfl
  bus := rfl
  mem _ _ _ := rfl
  ports := by simp [IoAccess.onBus]; rfl

theorem State.made_ioWrite (s : State) (z : Size) (ios : IoSpace) (p : Word) (v : z.Val) :
    s.Made (s.ioWrite z ios p v) (portAccess ios true z p) where
  cfg := rfl
  bus := rfl
  mem _ _ _ := rfl
  ports := by simp [IoAccess.onBus]; rfl

theorem State.made_loadRegs (s : State) (d : Reg) (a : Word) (n : Nat) : s.Made (loadRegs s d a n) [] := by
  induction n generalizing s d a with
  | zero => exact .refl s
  | succ n ih => exact (s.made_setRw d _).trans (ih _ _ _)

/-! ## Kinds -/

/-- Every access of a list is of kind DATA. -/
def OnlyData (acc : List BusAccess) : Prop := ∀ x ∈ acc, x.kind = .data

theorem OnlyData.append {acc acc' : List BusAccess} (h : OnlyData acc) (k : OnlyData acc') : OnlyData (acc ++ acc') :=
  fun x hx => (List.mem_append.1 hx).elim (h x) (k x)

/-- Such a list has no stack access. -/
theorem OnlyData.no_stack {acc : List BusAccess} (h : OnlyData acc) : acc.filter (fun x => x.kind == .stack) = [] := by
  rw [List.filter_eq_nil_iff]
  intro x hx
  simp [h x hx]

theorem onlyData_nil : OnlyData [] := fun _ hx => by simp at hx

theorem onlyData_memAccess (c : Config) (sp : Space) (w : Bool) (z : Size) (a : Word) :
    OnlyData (memAccess c .data sp w z a) := fun _ hx => kind_of_mem_memAccess c .data sp w z a hx

theorem onlyData_portAccess (ios : IoSpace) (w : Bool) (z : Size) (p : Word) : OnlyData (portAccess ios w z p) := by
  intro x hx
  simp [portAccess] at hx
  rw [hx]

theorem RegMem.onlyData_reads (s : State) (z : Size) (m : RegMem) : OnlyData (RegMem.reads s z m) := by
  cases m with
  | reg _ => exact onlyData_nil
  | mem m => exact onlyData_memAccess _ _ _ _ _

theorem RegMem.onlyData_writes (s : State) (z : Size) (m : RegMem) : OnlyData (RegMem.writes s z m) := by
  cases m with
  | reg _ => exact onlyData_nil
  | mem m => exact onlyData_memAccess _ _ _ _ _

theorem Src.onlyData_reads {z : Size} (s : State) (o : Src z) : OnlyData (Src.reads s o) := by
  cases o with
  | reg _ => exact onlyData_nil
  | imm _ => exact onlyData_nil
  | mem m => exact onlyData_memAccess _ _ _ _ _

theorem LdSrc.onlyData_reads {z : Size} (s : State) (o : LdSrc z) : OnlyData (LdSrc.reads s o) := by
  cases o with
  | src o => exact Src.onlyData_reads s o
  | based o => exact onlyData_memAccess _ _ _ _ _

theorem onlyData_multipleBus (s : State) (w : Bool) (a : Word) (n : BitVec 4) : OnlyData (multipleBus s w a n) := by
  intro x hx
  obtain ⟨k, -, hk⟩ := List.mem_flatMap.1 hx
  exact onlyData_memAccess _ _ _ _ _ x hk

/-! ## Compositions -/

/-- A change of registers and flags after the accesses. -/
theorem State.Made.quietly {acc : List BusAccess} (h : s.Made t acc) (k : t.Made u []) : s.Made u acc := by
  simpa using h.trans k

/-- Reads of memory before the accesses. -/
theorem State.Made.afterReads {acc acc' : List BusAccess} (h : s.Made t acc) (hp : acc'.filter BusAccess.isPort = []) :
    s.Made t (acc' ++ acc) := (State.made_reads hp).trans h

/-- Reads of memory and a change of registers and flags. -/
theorem State.Made.onlyReads {acc : List BusAccess} (h : s.Made t []) (hp : acc.filter BusAccess.isPort = []) :
    s.Made t acc := by
  simpa using h.afterReads hp

theorem State.made_bump (s : State) (r : Reg) (k : Word) : s.Made (s.bump r k) [] := s.made_setRw r _

theorem State.made_popped (s : State) (r : Reg) (z : Size) : s.Made (s.popped r z) [] := s.made_setRw r _

/-- POP and POPL (`40_data_movement.md` R226, R227). -/
theorem State.made_pop (s : State) (z : Size) (dst : RegMem) (r : Reg) (v : z.Val) :
    s.Made (RegMem.store (s.popped r z) z v dst) (popBus s z dst r) :=
  ((s.made_popped r z).trans (State.made_store _ z v dst)).afterReads (by simp [State.stackReads])

@[simp] theorem multipleBus_ports (s : State) (w : Bool) (a : Word) (n : BitVec 4) :
    (multipleBus s w a n).filter BusAccess.isPort = [] := by
  simp [multipleBus, List.filter_flatMap]

/-- LDM to memory (`40_data_movement.md` R219). -/
theorem State.made_storeRegs (s : State) (r : Reg) (a : Word) (n : Nat) :
    s.Made (storeRegs s r a n)
      ((List.range n).flatMap fun k => memAccess s.cfg .data .data true .w (a + BitVec.ofNat 16 (2 * k))) := by
  induction n generalizing s r a with
  | zero => exact .refl s
  | succ n ih =>
    have h := (s.made_memWrite .data .data .w a (s.rw r)).trans (ih (s.writeWord .data a (s.rw r)) (r + 1) (a + 2))
    have e : ∀ k, a + 2 + BitVec.ofNat 16 (2 * k) = a + BitVec.ofNat 16 (2 * k.succ) := by
      intro k
      apply BitVec.eq_of_toNat_eq
      simp
      omega
    simp only [e, State.writeWord_cfg] at h
    rw [List.range_succ_eq_map]
    simp only [List.flatMap_cons, List.flatMap_map, Nat.mul_zero, BitVec.add_zero]
    exact h

/-! ## Block iterations (`47_block.md`, `48_block_io.md`) -/

section
variable (z : Size) (ios : IoSpace) (down rep : Bool) (d src r : Reg)

theorem made_blockMove (hd : ptrReg d = true) (hs : ptrReg src = true) (h : blockMove z down rep d src r s = .next t) :
    s.Made t (moveBus s z d src) := by
  simp only [blockMove, pointerOk_eq_ptrReg, hd, hs, Bool.and_self, State.checked_true, blockEnd_eq,
    Host.Outcome.next.injEq] at h
  subst h
  exact (((State.made_memWrite _ .data .data _ _ _).afterReads (by simp [State.reads])).quietly (State.made_bump _ _ _)
    |>.quietly (State.made_bump _ _ _)).quietly (State.made_blockEndState _ _ _ _)

theorem made_blockTranslate (hd : ptrReg d = true) (hs : ptrReg src = true)
    (h : blockTranslate down rep d src r s = .next t) : s.Made t (translateBus s d src) := by
  simp only [blockTranslate, pointerOk_eq_ptrReg, hd, hs, Bool.and_self, State.checked_true, blockEnd_eq,
    Host.Outcome.next.injEq] at h
  subst h
  exact (((State.made_memWrite _ .data .data .b _ _).afterReads (by simp [tableBus, State.reads])).quietly
    (State.made_bump _ _ _)).quietly (State.made_blockEndState _ _ _ _)

theorem made_blockIn (hd : ptrReg d = true) (hs : ptrReg src = true) (hm : s.sysMode = true)
    (h : blockIn z ios down rep d src r s = .next t) : s.Made t (blockInBus s z ios d src) := by
  simp only [blockIn, pointerOk_eq_ptrReg, hd, hs, State.privileged_of_system _ hm, Bool.and_self, State.checked_true,
    blockEnd_eq, Host.Outcome.next.injEq] at h
  subst h
  exact (((State.made_noteRead _ _ _ _).trans (State.made_memWrite _ .data .data _ _ _)).quietly
    (State.made_bump _ _ _)).quietly (State.made_blockEndState _ _ _ _)

theorem made_blockOut (hd : ptrReg d = true) (hs : ptrReg src = true) (hm : s.sysMode = true)
    (h : blockOut z ios down rep d src r s = .next t) : s.Made t (blockOutBus s z ios d src) := by
  simp only [blockOut, pointerOk_eq_ptrReg, hd, hs, State.privileged_of_system _ hm, Bool.and_self, State.checked_true,
    blockEnd_eq, Host.Outcome.next.injEq] at h
  subst h
  exact (((State.made_ioWrite _ _ _ _ _).afterReads (by simp [State.reads])).quietly (State.made_bump _ _ _)).quietly
    (State.made_blockEndState _ _ _ _)

end

/-! ## The accesses of the rules -/

theorem memAccess_eq_dataUnits (c : Config) (w : Bool) (z : Size) (a : Word) :
    memAccess c .data .data w z a = dataUnits c w z a := by cases z <;> rfl

theorem Src.reads_eq_units {z : Size} (s : State) (o : Src z) : Src.reads s o = Src.units s o := by
  cases o <;> simp [Src.reads, Src.units, State.reads, memAccess_eq_dataUnits]

theorem RegMem.reads_eq_units (s : State) (z : Size) (o : RegMem) : RegMem.reads s z o = RegMem.units s false z o := by
  cases o <;> simp [RegMem.reads, RegMem.units, State.reads, memAccess_eq_dataUnits]

theorem RegMem.writes_eq_units (s : State) (z : Size) (o : RegMem) : RegMem.writes s z o = RegMem.units s true z o := by
  cases o <;> simp [RegMem.writes, RegMem.units, State.writes, memAccess_eq_dataUnits]

@[simp] theorem State.fetchBus_one (s : State) : s.fetchBus 1 = [fetchWord s.cfg s.pc] := by
  simp [State.fetchBus, fetchWord]

theorem resetBus_eq_resetReads (c : Config) : resetBus c = resetReads := by
  have h : ∀ a : Word, a = 2 ∨ a = 4 → wordAddr c a = a := by
    intro a ha; unfold wordAddr; rcases ha with rfl | rfl <;> split <;> rfl
  simp [resetBus, resetReads, memAccess, h]

/-- Where the checks pass, an instruction makes the accesses of its own effect. -/
theorem Instr.bus_eq_effectBus {i : Instr} (hw : i.wf = true) (hp : Instr.isPrivileged i = true → s.sysMode = true) :
    Instr.bus s i = Instr.effectBus s i := by
  unfold Instr.bus
  rw [if_neg (by simp [hw]), if_neg]
  intro h
  simp only [Bool.and_eq_true, Bool.not_eq_true'] at h
  simp [hp h.1] at h

theorem State.makes_nil (s : State) (acc : List BusAccess) : s.Makes acc [] := by simp [State.Makes]

theorem State.makes_cons {acc : List BusAccess} {i : Instr} {l : List Instr} (h : Instr.effectBus s i = acc)
    (k : s.Makes acc l) : s.Makes acc (i :: l) := by
  intro j hj hw hp
  rcases List.mem_cons.1 hj with rfl | hj
  · rw [Instr.bus_eq_effectBus hw hp, h]
  · exact k j hj hw hp

end Sys2Proof.Machine
end

