-- ==== Sys2Proof/Laws/Codec.lean ====
section
/-! SUPPORT. Laws/Codec.lean: fields of joined words, and how the decoder reads the words of an instruction that stand
at the front of a list of bytes (`30_encoding.md` R110, R111). -/
namespace Sys2Proof

@[simp] theorem digit3_join (p q a b : Reg) : (join p q a b : Word).digit3 = p := by
  apply BitVec.eq_of_getLsbD_eq
  intro i hi
  simp only [join, Word.digit3, BitVec.getLsbD_extractLsb', BitVec.getLsbD_append]
  have : i < 4 := hi
  grind

@[simp] theorem digit2_join (p q a b : Reg) : (join p q a b : Word).digit2 = q := by
  apply BitVec.eq_of_getLsbD_eq
  intro i hi
  simp only [join, Word.digit2, BitVec.getLsbD_extractLsb', BitVec.getLsbD_append]
  have : i < 4 := hi
  grind

@[simp] theorem digit1_join (p q a b : Reg) : (join p q a b : Word).digit1 = a := by
  apply BitVec.eq_of_getLsbD_eq
  intro i hi
  simp only [join, Word.digit1, BitVec.getLsbD_extractLsb', BitVec.getLsbD_append]
  have : i < 4 := hi
  grind

@[simp] theorem digit0_join (p q a b : Reg) : (join p q a b : Word).digit0 = b := by
  apply BitVec.eq_of_getLsbD_eq
  intro i hi
  simp only [join, Word.digit0, BitVec.getLsbD_extractLsb', BitVec.getLsbD_append]
  have : i < 4 := hi
  grind

@[simp] theorem byteOf_digits (k : Byte) : byteOf (Byte.digit1 k) (Byte.digit0 k) = k := by revert k; decide

@[simp] theorem Cc.ofBits_bits (cc : Cc) : Cc.ofBits cc.bits = cc := by cases cc <;> rfl

theorem Cc.bits_ofBits (b : BitVec 4) : (Cc.ofBits b).bits = b := by revert b; decide

@[simp] theorem Ctl.ofBits_bits (k : Ctl) : Ctl.ofBits k.bits = some k := by cases k <;> rfl

/-- The decoder on a word given by its digits. -/
@[simp] theorem decodeWords_join (p q a b : Reg) (w2 w3 : Word) :
    decodeWords (join p q a b) w2 w3 = decodeDigits p q a b w2 w3 := by simp [decodeWords]

@[simp] theorem wordOf_bytes (w : Word) (rest : List Byte) : wordOf (w.hi :: w.lo :: rest) = w := by
  show w.hi ++ w.lo = w
  apply BitVec.eq_of_getLsbD_eq
  intro i hi
  simp only [Word.hi, Word.lo, BitVec.getLsbD_append, BitVec.getLsbD_extractLsb']
  grind

theorem length_bytesOf (ws : List Word) : (bytesOf ws).length = 2 * ws.length := by
  induction ws with
  | nil => rfl
  | cons w ws ih => simp [bytesOf, ih]; omega

/-- A one-word instruction: the following bytes do not matter. -/
theorem decode_one {w : Word} {i : Instr} (hl : i.words = 1) (h : ∀ w2 w3, decodeWords w w2 w3 = some i)
    (rest : List Byte) : decode (bytesOf [w] ++ rest) = .ok i rest := by
  simp [decode, bytesOf, h, hl]

/-- A two-word instruction. -/
theorem decode_two {w v : Word} {i : Instr} (hl : i.words = 2) (h : ∀ w3, decodeWords w v w3 = some i)
    (rest : List Byte) : decode (bytesOf [w, v] ++ rest) = .ok i rest := by
  simp [decode, bytesOf, h, hl]

/-- A three-word instruction. -/
theorem decode_three {w v u : Word} {i : Instr} (hl : i.words = 3) (h : decodeWords w v u = some i)
    (rest : List Byte) : decode (bytesOf [w, v, u] ++ rest) = .ok i rest := by
  simp [decode, bytesOf, h, hl]

end Sys2Proof
end

