-- ==== Sys2Proof/Laws/PerInstr.lean ====
section
/-! SUPPORT. Laws/PerInstr.lean: facts about every instruction as syntax, one lemma for each constructor. Family
`EncodeLength`: the encoding has as many words as `Instr.words` says (`30_encoding.md` R110, R119). -/
namespace Sys2Proof

@[simp] theorem MemOp.length_ext (m : MemOp) : m.ext.length = m.extLen := by cases m <;> rfl

@[simp] theorem RegMem.length_ext (o : RegMem) : o.ext.length = o.extLen := by
  cases o with
  | reg _ => rfl
  | mem m => exact m.length_ext

@[simp] theorem length_immWords (z : Size) (k : z.Val) : (immWords z k).length = z.immLen := by cases z <;> rfl

@[simp] theorem Src.length_ext {z : Size} (o : Src z) : o.ext.length = o.extLen := by
  cases o with
  | reg _ => rfl
  | imm k => exact length_immWords z k
  | mem m => exact m.length_ext

theorem MemOp.length_encode (p q u : Reg) (m : MemOp) : (m.encode p q u).length = 1 + m.extLen := by
  simp [MemOp.encode]; omega

theorem RegMem.length_encode (p q u : Reg) (o : RegMem) : (o.encode p q u).length = 1 + o.extLen := by
  simp [RegMem.encode]; omega

theorem Src.length_encode {z : Size} (p q d : Reg) (o : Src z) : (o.encode p q d).length = 1 + o.extLen := by
  simp [Src.encode]; omega

theorem Based.length_encode (q b : Reg) (o : Based) : (o.encode q b).length = 2 := by cases o <;> rfl

theorem LdSrc.length_encode {z : Size} (p q qb d : Reg) (o : LdSrc z) : (o.encode p q qb d).length = 1 + o.extLen := by
  cases o with
  | src o => simp [LdSrc.encode, LdSrc.extLen]; omega
  | based o => exact o.length_encode qb d

theorem StDst.length_encode (p q qb r : Reg) (o : StDst) : (o.encode p q qb r).length = 1 + o.extLen := by
  cases o with
  | mem m => simp [StDst.encode, StDst.extLen]; omega
  | based o => exact o.length_encode qb r

theorem LaSrc.length_encode (d : Reg) (o : LaSrc) : (o.encode d).length = 2 := by
  cases o with
  | da _ => rfl
  | x _ _ => rfl
  | based o => exact o.length_encode 0x4 d

namespace Laws.EncodeLength

/-- The encoding of an instruction has the length the decoder gives it. -/
def Statement (i : Instr) : Prop := i.encode.length = i.words

theorem ld (d : Reg) (src : LdSrc .w) : Statement (.ld d src) := LdSrc.length_encode _ _ _ _ src
theorem ldb (d : Reg) (src : LdSrc .b) : Statement (.ldb d src) := LdSrc.length_encode _ _ _ _ src
theorem ldbShort (d : Reg) (k : Byte) : Statement (.ldbShort d k) := rfl
theorem ldl (d : Reg) (src : LdSrc .l) : Statement (.ldl d src) := LdSrc.length_encode _ _ _ _ src
theorem ldSt (dst : StDst) (s : Reg) : Statement (.ldSt dst s) := StDst.length_encode _ _ _ _ dst
theorem ldbSt (dst : StDst) (s : Reg) : Statement (.ldbSt dst s) := StDst.length_encode _ _ _ _ dst
theorem ldlSt (dst : StDst) (s : Reg) : Statement (.ldlSt dst s) := StDst.length_encode _ _ _ _ dst
theorem ldImm (dst : MemOp) (k : Word) : Statement (.ldImm dst k) := by
  simp [Statement, Instr.encode, Instr.words, MemOp.length_encode, immWords]; omega
theorem ldbImm (dst : MemOp) (k : Byte) : Statement (.ldbImm dst k) := by
  simp [Statement, Instr.encode, Instr.words, MemOp.length_encode, immWords]; omega
theorem ldr (d : Reg) (disp : Word) : Statement (.ldr d disp) := rfl
theorem ldrSt (disp : Word) (s : Reg) : Statement (.ldrSt disp s) := rfl
theorem ldrb (d : Reg) (disp : Word) : Statement (.ldrb d disp) := rfl
theorem ldrbSt (disp : Word) (s : Reg) : Statement (.ldrbSt disp s) := rfl
theorem ldrl (d : Reg) (disp : Word) : Statement (.ldrl d disp) := rfl
theorem ldrlSt (disp : Word) (s : Reg) : Statement (.ldrlSt disp s) := rfl
theorem lda (d : Reg) (src : LaSrc) : Statement (.lda d src) := LaSrc.length_encode _ src
theorem ldar (d : Reg) (disp : Word) : Statement (.ldar d disp) := rfl
theorem ldk (d : Reg) (n : BitVec 4) : Statement (.ldk d n) := rfl
theorem ldm (d : Reg) (src : MemOp) (n : BitVec 4) : Statement (.ldm d src n) := by simp [Statement, Instr.encode, Instr.words]; omega
theorem ldmSt (dst : MemOp) (s : Reg) (n : BitVec 4) : Statement (.ldmSt dst s n) := by simp [Statement, Instr.encode, Instr.words]; omega
theorem clr (dst : RegMem) : Statement (.clr dst) := RegMem.length_encode _ _ _ dst
theorem clrb (dst : RegMem) : Statement (.clrb dst) := RegMem.length_encode _ _ _ dst
theorem ex (d : Reg) (src : RegMem) : Statement (.ex d src) := RegMem.length_encode _ _ _ src
theorem exb (d : Reg) (src : RegMem) : Statement (.exb d src) := RegMem.length_encode _ _ _ src
theorem push (d : Reg) (src : Src .w) : Statement (.push d src) := by
  cases src with
  | reg _ => rfl
  | imm _ => rfl
  | mem m => simp [Statement, Instr.encode, Instr.words, Src.extLen]; omega
theorem pushl (d : Reg) (src : RegMem) : Statement (.pushl d src) := by simp [Statement, Instr.encode, Instr.words]; omega
theorem pop (dst : RegMem) (s : Reg) : Statement (.pop dst s) := by simp [Statement, Instr.encode, Instr.words]; omega
theorem popl (dst : RegMem) (s : Reg) : Statement (.popl dst s) := by simp [Statement, Instr.encode, Instr.words]; omega
theorem add (d : Reg) (src : Src .w) : Statement (.add d src) := Src.length_encode _ _ _ src
theorem addb (d : Reg) (src : Src .b) : Statement (.addb d src) := Src.length_encode _ _ _ src
theorem addl (d : Reg) (src : Src .l) : Statement (.addl d src) := Src.length_encode _ _ _ src
theorem adc (d : Reg) (s : Reg) : Statement (.adc d s) := rfl
theorem adcb (d : Reg) (s : Reg) : Statement (.adcb d s) := rfl
theorem sub (d : Reg) (src : Src .w) : Statement (.sub d src) := Src.length_encode _ _ _ src
theorem subb (d : Reg) (src : Src .b) : Statement (.subb d src) := Src.length_encode _ _ _ src
theorem subl (d : Reg) (src : Src .l) : Statement (.subl d src) := Src.length_encode _ _ _ src
theorem sbc (d : Reg) (s : Reg) : Statement (.sbc d s) := rfl
theorem sbcb (d : Reg) (s : Reg) : Statement (.sbcb d s) := rfl
theorem cp (d : Reg) (src : Src .w) : Statement (.cp d src) := Src.length_encode _ _ _ src
theorem cpb (d : Reg) (src : Src .b) : Statement (.cpb d src) := Src.length_encode _ _ _ src
theorem cpl (d : Reg) (src : Src .l) : Statement (.cpl d src) := Src.length_encode _ _ _ src
theorem cpImm (dst : MemOp) (k : Word) : Statement (.cpImm dst k) := by
  simp [Statement, Instr.encode, Instr.words, MemOp.length_encode, immWords]; omega
theorem cpbImm (dst : MemOp) (k : Byte) : Statement (.cpbImm dst k) := by
  simp [Statement, Instr.encode, Instr.words, MemOp.length_encode, immWords]; omega
theorem inc (dst : RegMem) (n : BitVec 4) : Statement (.inc dst n) := RegMem.length_encode _ _ _ dst
theorem incb (dst : RegMem) (n : BitVec 4) : Statement (.incb dst n) := RegMem.length_encode _ _ _ dst
theorem dec (dst : RegMem) (n : BitVec 4) : Statement (.dec dst n) := RegMem.length_encode _ _ _ dst
theorem decb (dst : RegMem) (n : BitVec 4) : Statement (.decb dst n) := RegMem.length_encode _ _ _ dst
theorem neg (dst : RegMem) : Statement (.neg dst) := RegMem.length_encode _ _ _ dst
theorem negb (dst : RegMem) : Statement (.negb dst) := RegMem.length_encode _ _ _ dst
theorem com (dst : RegMem) : Statement (.com dst) := RegMem.length_encode _ _ _ dst
theorem comb (dst : RegMem) : Statement (.comb dst) := RegMem.length_encode _ _ _ dst
theorem mult (d : Reg) (src : Src .w) : Statement (.mult d src) := Src.length_encode _ _ _ src
theorem multl (d : Reg) (src : Src .l) : Statement (.multl d src) := Src.length_encode _ _ _ src
theorem div (d : Reg) (src : Src .w) : Statement (.div d src) := Src.length_encode _ _ _ src
theorem divl (d : Reg) (src : Src .l) : Statement (.divl d src) := Src.length_encode _ _ _ src
theorem extsb (d : Reg) : Statement (.extsb d) := rfl
theorem exts (d : Reg) : Statement (.exts d) := rfl
theorem extsl (d : Reg) : Statement (.extsl d) := rfl
theorem dab (d : Reg) : Statement (.dab d) := rfl
theorem and (d : Reg) (src : Src .w) : Statement (.and d src) := Src.length_encode _ _ _ src
theorem andb (d : Reg) (src : Src .b) : Statement (.andb d src) := Src.length_encode _ _ _ src
theorem or (d : Reg) (src : Src .w) : Statement (.or d src) := Src.length_encode _ _ _ src
theorem orb (d : Reg) (src : Src .b) : Statement (.orb d src) := Src.length_encode _ _ _ src
theorem xor (d : Reg) (src : Src .w) : Statement (.xor d src) := Src.length_encode _ _ _ src
theorem xorb (d : Reg) (src : Src .b) : Statement (.xorb d src) := Src.length_encode _ _ _ src
theorem test (dst : RegMem) : Statement (.test dst) := RegMem.length_encode _ _ _ dst
theorem testb (dst : RegMem) : Statement (.testb dst) := RegMem.length_encode _ _ _ dst
theorem testl (dst : RegMem) : Statement (.testl dst) := RegMem.length_encode _ _ _ dst
theorem bit (dst : RegMem) (b : BitVec 4) : Statement (.bit dst b) := RegMem.length_encode _ _ _ dst
theorem bitb (dst : RegMem) (b : BitVec 4) : Statement (.bitb dst b) := RegMem.length_encode _ _ _ dst
theorem bitDyn (d : Reg) (s : Reg) : Statement (.bitDyn d s) := rfl
theorem bitbDyn (d : Reg) (s : Reg) : Statement (.bitbDyn d s) := rfl
theorem set (dst : RegMem) (b : BitVec 4) : Statement (.set dst b) := RegMem.length_encode _ _ _ dst
theorem setb (dst : RegMem) (b : BitVec 4) : Statement (.setb dst b) := RegMem.length_encode _ _ _ dst
theorem setDyn (d : Reg) (s : Reg) : Statement (.setDyn d s) := rfl
theorem setbDyn (d : Reg) (s : Reg) : Statement (.setbDyn d s) := rfl
theorem res (dst : RegMem) (b : BitVec 4) : Statement (.res dst b) := RegMem.length_encode _ _ _ dst
theorem resb (dst : RegMem) (b : BitVec 4) : Statement (.resb dst b) := RegMem.length_encode _ _ _ dst
theorem resDyn (d : Reg) (s : Reg) : Statement (.resDyn d s) := rfl
theorem resbDyn (d : Reg) (s : Reg) : Statement (.resbDyn d s) := rfl
theorem tset (dst : RegMem) : Statement (.tset dst) := RegMem.length_encode _ _ _ dst
theorem tsetb (dst : RegMem) : Statement (.tsetb dst) := RegMem.length_encode _ _ _ dst
theorem tcc (cc : Cc) (d : Reg) : Statement (.tcc cc d) := rfl
theorem tccb (cc : Cc) (d : Reg) : Statement (.tccb cc d) := rfl
theorem rl (d : Reg) (twice : Bool) : Statement (.rl d twice) := rfl
theorem rlb (d : Reg) (twice : Bool) : Statement (.rlb d twice) := rfl
theorem rr (d : Reg) (twice : Bool) : Statement (.rr d twice) := rfl
theorem rrb (d : Reg) (twice : Bool) : Statement (.rrb d twice) := rfl
theorem rlc (d : Reg) (twice : Bool) : Statement (.rlc d twice) := rfl
theorem rlcb (d : Reg) (twice : Bool) : Statement (.rlcb d twice) := rfl
theorem rrc (d : Reg) (twice : Bool) : Statement (.rrc d twice) := rfl
theorem rrcb (d : Reg) (twice : Bool) : Statement (.rrcb d twice) := rfl
theorem slaSra (d : Reg) (count : Word) : Statement (.slaSra d count) := rfl
theorem slabSrab (d : Reg) (count : Word) : Statement (.slabSrab d count) := rfl
theorem slalSral (d : Reg) (count : Word) : Statement (.slalSral d count) := rfl
theorem sllSrl (d : Reg) (count : Word) : Statement (.sllSrl d count) := rfl
theorem sllbSrlb (d : Reg) (count : Word) : Statement (.sllbSrlb d count) := rfl
theorem slllSrll (d : Reg) (count : Word) : Statement (.slllSrll d count) := rfl
theorem sda (d : Reg) (s : Reg) : Statement (.sda d s) := rfl
theorem sdab (d : Reg) (s : Reg) : Statement (.sdab d s) := rfl
theorem sdal (d : Reg) (s : Reg) : Statement (.sdal d s) := rfl
theorem sdl (d : Reg) (s : Reg) : Statement (.sdl d s) := rfl
theorem sdlb (d : Reg) (s : Reg) : Statement (.sdlb d s) := rfl
theorem sdll (d : Reg) (s : Reg) : Statement (.sdll d s) := rfl
theorem rldb (l : Reg) (s : Reg) : Statement (.rldb l s) := rfl
theorem rrdb (l : Reg) (s : Reg) : Statement (.rrdb l s) := rfl
theorem jp (cc : Cc) (dst : MemOp) : Statement (.jp cc dst) := MemOp.length_encode _ _ _ dst
theorem jr (cc : Cc) (disp : BitVec 8) : Statement (.jr cc disp) := rfl
theorem call (dst : MemOp) : Statement (.call dst) := MemOp.length_encode _ _ _ dst
theorem calr (disp : BitVec 12) : Statement (.calr disp) := rfl
theorem ret (cc : Cc) : Statement (.ret cc) := rfl
theorem djnz (r : Reg) (disp : BitVec 7) : Statement (.djnz r disp) := rfl
theorem dbjnz (r : Reg) (disp : BitVec 7) : Statement (.dbjnz r disp) := rfl
theorem nop : Statement (.nop) := rfl
theorem halt : Statement (.halt) := rfl
theorem di (v : Bool) (n : Bool) : Statement (.di v n) := rfl
theorem ei (v : Bool) (n : Bool) : Statement (.ei v n) := rfl
theorem ldps (src : MemOp) : Statement (.ldps src) := by cases src <;> rfl
theorem sc (code : Byte) : Statement (.sc code) := rfl
theorem iret : Statement (.iret) := rfl
theorem setflg (mask : BitVec 4) : Statement (.setflg mask) := rfl
theorem resflg (mask : BitVec 4) : Statement (.resflg mask) := rfl
theorem comflg (mask : BitVec 4) : Statement (.comflg mask) := rfl
theorem ldctlRead (d : Reg) (k : Ctl) : Statement (.ldctlRead d k) := rfl
theorem ldctlWrite (k : Ctl) (s : Reg) : Statement (.ldctlWrite k s) := rfl
theorem ldctlbRead (d : Reg) : Statement (.ldctlbRead d) := rfl
theorem ldctlbWrite (s : Reg) : Statement (.ldctlbWrite s) := rfl
theorem mset : Statement (.mset) := rfl
theorem mres : Statement (.mres) := rfl
theorem mbit : Statement (.mbit) := rfl
theorem mreq (d : Reg) : Statement (.mreq d) := rfl
theorem epu (page : EpuPage) (op : Byte) : Statement (.epu page op) := rfl
theorem inInd (d : Reg) (s : Reg) : Statement (.inInd d s) := rfl
theorem inDir (d : Reg) (port : Word) : Statement (.inDir d port) := rfl
theorem inbInd (d : Reg) (s : Reg) : Statement (.inbInd d s) := rfl
theorem inbDir (d : Reg) (port : Word) : Statement (.inbDir d port) := rfl
theorem outInd (d : Reg) (s : Reg) : Statement (.outInd d s) := rfl
theorem outDir (port : Word) (s : Reg) : Statement (.outDir port s) := rfl
theorem outbInd (d : Reg) (s : Reg) : Statement (.outbInd d s) := rfl
theorem outbDir (port : Word) (s : Reg) : Statement (.outbDir port s) := rfl
theorem sin (d : Reg) (port : Word) : Statement (.sin d port) := rfl
theorem sinb (d : Reg) (port : Word) : Statement (.sinb d port) := rfl
theorem sout (port : Word) (s : Reg) : Statement (.sout port s) := rfl
theorem soutb (port : Word) (s : Reg) : Statement (.soutb port s) := rfl
theorem ldi (d : Reg) (s : Reg) (r : Reg) : Statement (.ldi d s r) := rfl
theorem ldir (d : Reg) (s : Reg) (r : Reg) : Statement (.ldir d s r) := rfl
theorem ldd (d : Reg) (s : Reg) (r : Reg) : Statement (.ldd d s r) := rfl
theorem lddr (d : Reg) (s : Reg) (r : Reg) : Statement (.lddr d s r) := rfl
theorem ldib (d : Reg) (s : Reg) (r : Reg) : Statement (.ldib d s r) := rfl
theorem ldirb (d : Reg) (s : Reg) (r : Reg) : Statement (.ldirb d s r) := rfl
theorem lddb (d : Reg) (s : Reg) (r : Reg) : Statement (.lddb d s r) := rfl
theorem lddrb (d : Reg) (s : Reg) (r : Reg) : Statement (.lddrb d s r) := rfl
theorem cpi (d : Reg) (s : Reg) (r : Reg) (cc : Cc) : Statement (.cpi d s r cc) := rfl
theorem cpir (d : Reg) (s : Reg) (r : Reg) (cc : Cc) : Statement (.cpir d s r cc) := rfl
theorem cpd (d : Reg) (s : Reg) (r : Reg) (cc : Cc) : Statement (.cpd d s r cc) := rfl
theorem cpdr (d : Reg) (s : Reg) (r : Reg) (cc : Cc) : Statement (.cpdr d s r cc) := rfl
theorem cpib (d : Reg) (s : Reg) (r : Reg) (cc : Cc) : Statement (.cpib d s r cc) := rfl
theorem cpirb (d : Reg) (s : Reg) (r : Reg) (cc : Cc) : Statement (.cpirb d s r cc) := rfl
theorem cpdb (d : Reg) (s : Reg) (r : Reg) (cc : Cc) : Statement (.cpdb d s r cc) := rfl
theorem cpdrb (d : Reg) (s : Reg) (r : Reg) (cc : Cc) : Statement (.cpdrb d s r cc) := rfl
theorem cpsi (d : Reg) (s : Reg) (r : Reg) (cc : Cc) : Statement (.cpsi d s r cc) := rfl
theorem cpsir (d : Reg) (s : Reg) (r : Reg) (cc : Cc) : Statement (.cpsir d s r cc) := rfl
theorem cpsd (d : Reg) (s : Reg) (r : Reg) (cc : Cc) : Statement (.cpsd d s r cc) := rfl
theorem cpsdr (d : Reg) (s : Reg) (r : Reg) (cc : Cc) : Statement (.cpsdr d s r cc) := rfl
theorem cpsib (d : Reg) (s : Reg) (r : Reg) (cc : Cc) : Statement (.cpsib d s r cc) := rfl
theorem cpsirb (d : Reg) (s : Reg) (r : Reg) (cc : Cc) : Statement (.cpsirb d s r cc) := rfl
theorem cpsdb (d : Reg) (s : Reg) (r : Reg) (cc : Cc) : Statement (.cpsdb d s r cc) := rfl
theorem cpsdrb (d : Reg) (s : Reg) (r : Reg) (cc : Cc) : Statement (.cpsdrb d s r cc) := rfl
theorem trib (d : Reg) (s : Reg) (r : Reg) : Statement (.trib d s r) := rfl
theorem trirb (d : Reg) (s : Reg) (r : Reg) : Statement (.trirb d s r) := rfl
theorem trdb (d : Reg) (s : Reg) (r : Reg) : Statement (.trdb d s r) := rfl
theorem trdrb (d : Reg) (s : Reg) (r : Reg) : Statement (.trdrb d s r) := rfl
theorem trtib (s1 : Reg) (s2 : Reg) (r : Reg) : Statement (.trtib s1 s2 r) := rfl
theorem trtirb (s1 : Reg) (s2 : Reg) (r : Reg) : Statement (.trtirb s1 s2 r) := rfl
theorem trtdb (s1 : Reg) (s2 : Reg) (r : Reg) : Statement (.trtdb s1 s2 r) := rfl
theorem trtdrb (s1 : Reg) (s2 : Reg) (r : Reg) : Statement (.trtdrb s1 s2 r) := rfl
theorem ini (d : Reg) (s : Reg) (r : Reg) : Statement (.ini d s r) := rfl
theorem inir (d : Reg) (s : Reg) (r : Reg) : Statement (.inir d s r) := rfl
theorem ind (d : Reg) (s : Reg) (r : Reg) : Statement (.ind d s r) := rfl
theorem indr (d : Reg) (s : Reg) (r : Reg) : Statement (.indr d s r) := rfl
theorem inib (d : Reg) (s : Reg) (r : Reg) : Statement (.inib d s r) := rfl
theorem inirb (d : Reg) (s : Reg) (r : Reg) : Statement (.inirb d s r) := rfl
theorem indb (d : Reg) (s : Reg) (r : Reg) : Statement (.indb d s r) := rfl
theorem indrb (d : Reg) (s : Reg) (r : Reg) : Statement (.indrb d s r) := rfl
theorem sini (d : Reg) (s : Reg) (r : Reg) : Statement (.sini d s r) := rfl
theorem sinir (d : Reg) (s : Reg) (r : Reg) : Statement (.sinir d s r) := rfl
theorem sind (d : Reg) (s : Reg) (r : Reg) : Statement (.sind d s r) := rfl
theorem sindr (d : Reg) (s : Reg) (r : Reg) : Statement (.sindr d s r) := rfl
theorem sinib (d : Reg) (s : Reg) (r : Reg) : Statement (.sinib d s r) := rfl
theorem sinirb (d : Reg) (s : Reg) (r : Reg) : Statement (.sinirb d s r) := rfl
theorem sindb (d : Reg) (s : Reg) (r : Reg) : Statement (.sindb d s r) := rfl
theorem sindrb (d : Reg) (s : Reg) (r : Reg) : Statement (.sindrb d s r) := rfl
theorem outi (d : Reg) (s : Reg) (r : Reg) : Statement (.outi d s r) := rfl
theorem otir (d : Reg) (s : Reg) (r : Reg) : Statement (.otir d s r) := rfl
theorem outd (d : Reg) (s : Reg) (r : Reg) : Statement (.outd d s r) := rfl
theorem otdr (d : Reg) (s : Reg) (r : Reg) : Statement (.otdr d s r) := rfl
theorem outib (d : Reg) (s : Reg) (r : Reg) : Statement (.outib d s r) := rfl
theorem otirb (d : Reg) (s : Reg) (r : Reg) : Statement (.otirb d s r) := rfl
theorem outdb (d : Reg) (s : Reg) (r : Reg) : Statement (.outdb d s r) := rfl
theorem otdrb (d : Reg) (s : Reg) (r : Reg) : Statement (.otdrb d s r) := rfl
theorem souti (d : Reg) (s : Reg) (r : Reg) : Statement (.souti d s r) := rfl
theorem sotir (d : Reg) (s : Reg) (r : Reg) : Statement (.sotir d s r) := rfl
theorem soutd (d : Reg) (s : Reg) (r : Reg) : Statement (.soutd d s r) := rfl
theorem sotdr (d : Reg) (s : Reg) (r : Reg) : Statement (.sotdr d s r) := rfl
theorem soutib (d : Reg) (s : Reg) (r : Reg) : Statement (.soutib d s r) := rfl
theorem sotirb (d : Reg) (s : Reg) (r : Reg) : Statement (.sotirb d s r) := rfl
theorem soutdb (d : Reg) (s : Reg) (r : Reg) : Statement (.soutdb d s r) := rfl
theorem sotdrb (d : Reg) (s : Reg) (r : Reg) : Statement (.sotdrb d s r) := rfl

end Laws.EncodeLength
end Sys2Proof
end

