-- ==== Sys2Proof/Tests/Slice0.lean ====
section
/-! SUPPORT. Tests/Slice0.lean: the model's own tests. Words come from `spec/opcode_table.json` and `30_encoding.md` R119
to R123, results from `spec/95_test_vectors.md` and the examples of the rules; the last part shows, for each statement
that has hypotheses, a state and operands that meet them. -/
namespace Sys2Proof.Tests
open Sys2Proof.Machine

/-! ## Well-formedness: one ill-formed term for each check (`30_encoding.md` R116, R118) -/

theorem test_wf_refuses_address_register_zero : (Instr.ldSt (.mem (.ir 0)) 1).wf = false := by decide
theorem test_wf_refuses_index_register_zero : (Instr.jp .t (.x 0x1200 0)).wf = false := by decide
theorem test_wf_refuses_base_register_zero : (Instr.ld 1 (.based (.ba 0 0x10))).wf = false := by decide
theorem test_wf_refuses_bx_base_zero : (Instr.lda 1 (.based (.bx 0 2))).wf = false := by decide
theorem test_wf_refuses_bx_index_zero : (Instr.ldb 1 (.based (.bx 2 0))).wf = false := by decide
theorem test_wf_refuses_lda_index_zero : (Instr.lda 1 (.x 0x1200 0)).wf = false := by decide
theorem test_wf_refuses_odd_long_destination : (Instr.addl 3 (.reg 2)).wf = false := by decide
theorem test_wf_refuses_odd_long_source : (Instr.addl 2 (.reg 3)).wf = false := by decide
theorem test_wf_refuses_odd_long_store : (Instr.ldlSt (.mem (.da 0x2000)) 1).wf = false := by decide
theorem test_wf_refuses_odd_long_relative : (Instr.ldrl 5 0).wf = false ∧ (Instr.ldrlSt 0 5).wf = false := by decide
theorem test_wf_refuses_odd_long_shift : (Instr.sdal 1 2).wf = false ∧ (Instr.slllSrll 7 1).wf = false := by decide
theorem test_wf_refuses_quad_register_two : (Instr.multl 2 (.reg 8)).wf = false ∧ (Instr.extsl 6).wf = false := by decide
theorem test_wf_refuses_stack_register_zero : (Instr.push 0 (.reg 1)).wf = false ∧ (Instr.popl (.reg 2) 0).wf = false := by
  decide
theorem test_wf_refuses_port_register_zero : (Instr.inInd 1 0).wf = false ∧ (Instr.outbInd 0 1).wf = false := by decide
theorem test_wf_refuses_block_pointer_zero :
    (Instr.ldir 0 4 6).wf = false ∧ (Instr.ldir 5 0 6).wf = false ∧ (Instr.cpir 3 0 5 .eq).wf = false ∧
      (Instr.trtib 0 2 3).wf = false ∧ (Instr.otirb 2 0 3).wf = false := by decide
theorem test_wf_accepts_the_others :
    (Instr.ldm 15 (.ir 15) 15).wf = true ∧ (Instr.divl 12 (.reg 14)).wf = true ∧ (Instr.ldi 1 1 0).wf = true ∧
      (Instr.cpi 0 1 0 .f).wf = true := by decide

/-! ## Decoding: for every constructor a word from the opcode table -/

/-- Each list of bytes is exactly the instruction beside it. -/
def decodes (l : List (List Byte × Instr)) : Bool := l.all fun p => decide (decode p.1 = .ok p.2 [])

theorem test_decode_data_movement_1 : decodes [
    ([0xA1, 0x62], .ld 0x2 (.src (.reg 0x6))),
    ([0x20, 0x02, 0x12, 0x34], .ldb 0x2 (.src (.imm 0x34))),
    ([0xC2, 0xA5], .ldbShort 0x2 0xa5),
    ([0x54, 0x02, 0x12, 0x34], .ldl 0x2 (.src (.mem (.da 0x1234)))),
    ([0x73, 0x96, 0x07, 0x00], .ldSt (.based (.bx 0x9 7)) 0x6),
    ([0x2E, 0x96], .ldbSt (.mem (.ir 0x9)) 0x6),
    ([0x5D, 0x06, 0x12, 0x34], .ldlSt (.mem (.da 0x1234)) 0x6),
    ([0x4D, 0x05, 0x12, 0x34, 0x56, 0x78], .ldImm (.da 0x1234) 0x5678),
    ([0x4C, 0x95, 0x12, 0x34, 0x56, 0x78], .ldbImm (.x 0x1234 0x9) 0x78),
    ([0x31, 0x02, 0x12, 0x34], .ldr 0x2 0x1234),
    ([0x33, 0x06, 0x12, 0x34], .ldrSt 0x1234 0x6),
    ([0x30, 0x02, 0x12, 0x34], .ldrb 0x2 0x1234),
    ([0x32, 0x06, 0x12, 0x34], .ldrbSt 0x1234 0x6),
    ([0x35, 0x02, 0x12, 0x34], .ldrl 0x2 0x1234),
    ([0x37, 0x06, 0x12, 0x34], .ldrlSt 0x1234 0x6),
    ([0x76, 0x92, 0x12, 0x34], .lda 0x2 (.x 0x1234 0x9)),
    ([0x34, 0x02, 0x12, 0x34], .ldar 0x2 0x1234),
    ([0xBD, 0x27], .ldk 0x2 0x7),
    ([0x1C, 0x91, 0x05, 0x02], .ldm 5 (.ir 0x9) 2),
    ([0x5C, 0x09, 0x05, 0x02, 0x12, 0x34], .ldmSt (.da 0x1234) 5 2)] = true := by decide

theorem test_decode_data_movement_2 : decodes [
    ([0x0D, 0x98], .clr (.mem (.ir 0x9))),
    ([0x4C, 0x08, 0x12, 0x34], .clrb (.mem (.da 0x1234))),
    ([0x6D, 0x02, 0x12, 0x34], .ex 0x2 (.mem (.da 0x1234))),
    ([0x6C, 0x92, 0x12, 0x34], .exb 0x2 (.mem (.x 0x1234 0x9))),
    ([0x0D, 0x29, 0x12, 0x34], .push 0x2 (.imm 0x1234)),
    ([0x11, 0x29], .pushl 0x2 (.mem (.ir 0x9))),
    ([0x57, 0x60, 0x12, 0x34], .pop (.mem (.da 0x1234)) 0x6),
    ([0x55, 0x69, 0x12, 0x34], .popl (.mem (.x 0x1234 0x9)) 0x6)] = true := by decide

theorem test_decode_arithmetic_1 : decodes [
    ([0x41, 0x02, 0x12, 0x34], .add 0x2 (.mem (.da 0x1234))),
    ([0x40, 0x92, 0x12, 0x34], .addb 0x2 (.mem (.x 0x1234 0x9))),
    ([0x96, 0x62], .addl 0x2 (.reg 0x6)),
    ([0xB5, 0x62], .adc 0x2 0x6),
    ([0xB4, 0x62], .adcb 0x2 0x6),
    ([0x43, 0x02, 0x12, 0x34], .sub 0x2 (.mem (.da 0x1234))),
    ([0x42, 0x92, 0x12, 0x34], .subb 0x2 (.mem (.x 0x1234 0x9))),
    ([0x92, 0x62], .subl 0x2 (.reg 0x6)),
    ([0xB7, 0x62], .sbc 0x2 0x6),
    ([0xB6, 0x62], .sbcb 0x2 0x6),
    ([0x4B, 0x02, 0x12, 0x34], .cp 0x2 (.mem (.da 0x1234))),
    ([0x4A, 0x92, 0x12, 0x34], .cpb 0x2 (.mem (.x 0x1234 0x9))),
    ([0x90, 0x62], .cpl 0x2 (.reg 0x6)),
    ([0x4D, 0x91, 0x12, 0x34, 0x56, 0x78], .cpImm (.x 0x1234 0x9) 0x5678),
    ([0x0C, 0x91, 0x12, 0x34], .cpbImm (.ir 0x9) 0x34),
    ([0xA9, 0x27], .inc (.reg 0x2) 0x7),
    ([0x28, 0x97], .incb (.mem (.ir 0x9)) 0x7),
    ([0x6B, 0x07, 0x12, 0x34], .dec (.mem (.da 0x1234)) 0x7),
    ([0x6A, 0x97, 0x12, 0x34], .decb (.mem (.x 0x1234 0x9)) 0x7),
    ([0x8D, 0x22], .neg (.reg 0x2))] = true := by decide

theorem test_decode_arithmetic_2 : decodes [
    ([0x0C, 0x92], .negb (.mem (.ir 0x9))),
    ([0x4D, 0x00, 0x12, 0x34], .com (.mem (.da 0x1234))),
    ([0x4C, 0x90, 0x12, 0x34], .comb (.mem (.x 0x1234 0x9))),
    ([0x19, 0x02, 0x12, 0x34], .mult 0x2 (.imm 0x1234)),
    ([0x18, 0x94], .multl 0x4 (.mem (.ir 0x9))),
    ([0x5B, 0x02, 0x12, 0x34], .div 0x2 (.mem (.da 0x1234))),
    ([0x5A, 0x94, 0x12, 0x34], .divl 0x4 (.mem (.x 0x1234 0x9))),
    ([0xB1, 0x20], .extsb 0x2),
    ([0xB1, 0x2A], .exts 0x2),
    ([0xB1, 0x47], .extsl 0x4),
    ([0xB0, 0x20], .dab 0x2)] = true := by decide

theorem test_decode_logical_bit_1 : decodes [
    ([0x47, 0x92, 0x12, 0x34], .and 0x2 (.mem (.x 0x1234 0x9))),
    ([0x86, 0x62], .andb 0x2 (.reg 0x6)),
    ([0x05, 0x02, 0x12, 0x34], .or 0x2 (.imm 0x1234)),
    ([0x04, 0x92], .orb 0x2 (.mem (.ir 0x9))),
    ([0x49, 0x02, 0x12, 0x34], .xor 0x2 (.mem (.da 0x1234))),
    ([0x48, 0x92, 0x12, 0x34], .xorb 0x2 (.mem (.x 0x1234 0x9))),
    ([0x4D, 0x04, 0x12, 0x34], .test (.mem (.da 0x1234))),
    ([0x4C, 0x94, 0x12, 0x34], .testb (.mem (.x 0x1234 0x9))),
    ([0x9C, 0x28], .testl (.reg 0x2)),
    ([0x27, 0x9B], .bit (.mem (.ir 0x9)) 0xb),
    ([0x66, 0x0B, 0x12, 0x34], .bitb (.mem (.da 0x1234)) 0xb),
    ([0x27, 0x06, 0x05, 0x00], .bitDyn 5 0x6),
    ([0x26, 0x06, 0x05, 0x00], .bitbDyn 5 0x6),
    ([0x25, 0x9B], .set (.mem (.ir 0x9)) 0xb),
    ([0x64, 0x0B, 0x12, 0x34], .setb (.mem (.da 0x1234)) 0xb),
    ([0x25, 0x06, 0x05, 0x00], .setDyn 5 0x6),
    ([0x24, 0x06, 0x05, 0x00], .setbDyn 5 0x6),
    ([0x23, 0x9B], .res (.mem (.ir 0x9)) 0xb),
    ([0x62, 0x0B, 0x12, 0x34], .resb (.mem (.da 0x1234)) 0xb),
    ([0x23, 0x06, 0x05, 0x00], .resDyn 5 0x6)] = true := by decide

theorem test_decode_logical_bit_2 : decodes [
    ([0x22, 0x06, 0x05, 0x00], .resbDyn 5 0x6),
    ([0x0D, 0x96], .tset (.mem (.ir 0x9))),
    ([0x4C, 0x06, 0x12, 0x34], .tsetb (.mem (.da 0x1234))),
    ([0xAF, 0x26], .tcc .eq 0x2),
    ([0xAE, 0x26], .tccb .eq 0x2)] = true := by decide

theorem test_decode_shift_rotate_1 : decodes [
    ([0xB3, 0x22], .rl 0x2 true),
    ([0xB2, 0x22], .rlb 0x2 true),
    ([0xB3, 0x26], .rr 0x2 true),
    ([0xB2, 0x26], .rrb 0x2 true),
    ([0xB3, 0x2A], .rlc 0x2 true),
    ([0xB2, 0x2A], .rlcb 0x2 true),
    ([0xB3, 0x2E], .rrc 0x2 true),
    ([0xB2, 0x2E], .rrcb 0x2 true),
    ([0xB3, 0x29, 0x12, 0x34], .slaSra 0x2 0x1234),
    ([0xB2, 0x29, 0x12, 0x34], .slabSrab 0x2 0x1234),
    ([0xB3, 0x2D, 0x12, 0x34], .slalSral 0x2 0x1234),
    ([0xB3, 0x21, 0x12, 0x34], .sllSrl 0x2 0x1234),
    ([0xB2, 0x21, 0x12, 0x34], .sllbSrlb 0x2 0x1234),
    ([0xB3, 0x25, 0x12, 0x34], .slllSrll 0x2 0x1234),
    ([0xB3, 0x2B, 0x05, 0x00], .sda 0x2 5),
    ([0xB2, 0x2B, 0x05, 0x00], .sdab 0x2 5),
    ([0xB3, 0x2F, 0x05, 0x00], .sdal 0x2 5),
    ([0xB3, 0x23, 0x05, 0x00], .sdl 0x2 5),
    ([0xB2, 0x23, 0x05, 0x00], .sdlb 0x2 5),
    ([0xB3, 0x27, 0x05, 0x00], .sdll 0x2 5)] = true := by decide

theorem test_decode_shift_rotate_2 : decodes [
    ([0xBE, 0x26], .rldb 0x2 0x6),
    ([0xBC, 0x26], .rrdb 0x2 0x6)] = true := by decide

theorem test_decode_control : decodes [
    ([0x5E, 0x06, 0x12, 0x34], .jp .eq (.da 0x1234)),
    ([0xE6, 0xFE], .jr .eq 0xFE),
    ([0x1F, 0x90], .call (.ir 0x9)),
    ([0xD3, 0xA7], .calr 0x3A7),
    ([0x9E, 0x06], .ret .eq),
    ([0xF3, 0xC5], .djnz 3 0x45),
    ([0xF3, 0x45], .dbjnz 3 0x45)] = true := by decide

theorem test_decode_system : decodes [
    ([0x8D, 0x07], .nop),
    ([0x7A, 0x00], .halt),
    ([0x7C, 0x02], .di true false),
    ([0x7C, 0x06], .ei true false),
    ([0x39, 0x90], .ldps (.ir 0x9)),
    ([0x7F, 0xA5], .sc 0xa5),
    ([0x7B, 0x00], .iret),
    ([0x8D, 0x91], .setflg 0x9),
    ([0x8D, 0x93], .resflg 0x9),
    ([0x8D, 0x95], .comflg 0x9),
    ([0x7D, 0x27], .ldctlRead 0x2 .nsp),
    ([0x7D, 0x2A], .ldctlWrite .fcw 0x2),
    ([0x8C, 0x21], .ldctlbRead 0x2),
    ([0x8C, 0x69], .ldctlbWrite 0x6),
    ([0x7B, 0x08], .mset),
    ([0x7B, 0x09], .mres),
    ([0x7B, 0x0A], .mbit),
    ([0x7B, 0x2D], .mreq 0x2),
    ([0x8F, 0x5C], .epu .p8F 0x5c)] = true := by decide

theorem test_decode_io : decodes [
    ([0x3D, 0x92], .inInd 0x2 0x9),
    ([0x3B, 0x24, 0x12, 0x34], .inDir 0x2 0x1234),
    ([0x3C, 0x92], .inbInd 0x2 0x9),
    ([0x3A, 0x24, 0x12, 0x34], .inbDir 0x2 0x1234),
    ([0x3F, 0x96], .outInd 0x9 0x6),
    ([0x3B, 0x66, 0x12, 0x34], .outDir 0x1234 0x6),
    ([0x3E, 0x96], .outbInd 0x9 0x6),
    ([0x3A, 0x66, 0x12, 0x34], .outbDir 0x1234 0x6),
    ([0x3B, 0x25, 0x12, 0x34], .sin 0x2 0x1234),
    ([0x3A, 0x25, 0x12, 0x34], .sinb 0x2 0x1234),
    ([0x3B, 0x67, 0x12, 0x34], .sout 0x1234 0x6),
    ([0x3A, 0x67, 0x12, 0x34], .soutb 0x1234 0x6)] = true := by decide

theorem test_decode_block_1 : decodes [
    ([0xBB, 0x61, 0x03, 0x58], .ldi 5 0x6 3),
    ([0xBB, 0x61, 0x03, 0x50], .ldir 5 0x6 3),
    ([0xBB, 0x69, 0x03, 0x58], .ldd 5 0x6 3),
    ([0xBB, 0x69, 0x03, 0x50], .lddr 5 0x6 3),
    ([0xBA, 0x61, 0x03, 0x58], .ldib 5 0x6 3),
    ([0xBA, 0x61, 0x03, 0x50], .ldirb 5 0x6 3),
    ([0xBA, 0x69, 0x03, 0x58], .lddb 5 0x6 3),
    ([0xBA, 0x69, 0x03, 0x50], .lddrb 5 0x6 3),
    ([0xBB, 0x60, 0x03, 0x5E], .cpi 5 0x6 3 .ne),
    ([0xBB, 0x64, 0x03, 0x5E], .cpir 5 0x6 3 .ne),
    ([0xBB, 0x68, 0x03, 0x5E], .cpd 5 0x6 3 .ne),
    ([0xBB, 0x6C, 0x03, 0x5E], .cpdr 5 0x6 3 .ne),
    ([0xBA, 0x60, 0x03, 0x5E], .cpib 5 0x6 3 .ne),
    ([0xBA, 0x64, 0x03, 0x5E], .cpirb 5 0x6 3 .ne),
    ([0xBA, 0x68, 0x03, 0x5E], .cpdb 5 0x6 3 .ne),
    ([0xBA, 0x6C, 0x03, 0x5E], .cpdrb 5 0x6 3 .ne),
    ([0xBB, 0x62, 0x03, 0x5E], .cpsi 5 0x6 3 .ne),
    ([0xBB, 0x66, 0x03, 0x5E], .cpsir 5 0x6 3 .ne),
    ([0xBB, 0x6A, 0x03, 0x5E], .cpsd 5 0x6 3 .ne),
    ([0xBB, 0x6E, 0x03, 0x5E], .cpsdr 5 0x6 3 .ne)] = true := by decide

theorem test_decode_block_2 : decodes [
    ([0xBA, 0x62, 0x03, 0x5E], .cpsib 5 0x6 3 .ne),
    ([0xBA, 0x66, 0x03, 0x5E], .cpsirb 5 0x6 3 .ne),
    ([0xBA, 0x6A, 0x03, 0x5E], .cpsdb 5 0x6 3 .ne),
    ([0xBA, 0x6E, 0x03, 0x5E], .cpsdrb 5 0x6 3 .ne),
    ([0xB8, 0x90, 0x03, 0x50], .trib 0x9 5 3),
    ([0xB8, 0x94, 0x03, 0x50], .trirb 0x9 5 3),
    ([0xB8, 0x98, 0x03, 0x50], .trdb 0x9 5 3),
    ([0xB8, 0x9C, 0x03, 0x50], .trdrb 0x9 5 3),
    ([0xB8, 0x92, 0x03, 0x50], .trtib 0x9 5 3),
    ([0xB8, 0x96, 0x03, 0x5E], .trtirb 0x9 5 3),
    ([0xB8, 0x9A, 0x03, 0x50], .trtdb 0x9 5 3),
    ([0xB8, 0x9E, 0x03, 0x5E], .trtdrb 0x9 5 3)] = true := by decide

theorem test_decode_block_io_1 : decodes [
    ([0x3B, 0x60, 0x03, 0x58], .ini 5 0x6 3),
    ([0x3B, 0x60, 0x03, 0x50], .inir 5 0x6 3),
    ([0x3B, 0x68, 0x03, 0x58], .ind 5 0x6 3),
    ([0x3B, 0x68, 0x03, 0x50], .indr 5 0x6 3),
    ([0x3A, 0x60, 0x03, 0x58], .inib 5 0x6 3),
    ([0x3A, 0x60, 0x03, 0x50], .inirb 5 0x6 3),
    ([0x3A, 0x68, 0x03, 0x58], .indb 5 0x6 3),
    ([0x3A, 0x68, 0x03, 0x50], .indrb 5 0x6 3),
    ([0x3B, 0x61, 0x03, 0x58], .sini 5 0x6 3),
    ([0x3B, 0x61, 0x03, 0x50], .sinir 5 0x6 3),
    ([0x3B, 0x69, 0x03, 0x58], .sind 5 0x6 3),
    ([0x3B, 0x69, 0x03, 0x50], .sindr 5 0x6 3),
    ([0x3A, 0x61, 0x03, 0x58], .sinib 5 0x6 3),
    ([0x3A, 0x61, 0x03, 0x50], .sinirb 5 0x6 3),
    ([0x3A, 0x69, 0x03, 0x58], .sindb 5 0x6 3),
    ([0x3A, 0x69, 0x03, 0x50], .sindrb 5 0x6 3),
    ([0x3B, 0x62, 0x03, 0x58], .outi 5 0x6 3),
    ([0x3B, 0x62, 0x03, 0x50], .otir 5 0x6 3),
    ([0x3B, 0x6A, 0x03, 0x58], .outd 5 0x6 3),
    ([0x3B, 0x6A, 0x03, 0x50], .otdr 5 0x6 3)] = true := by decide

theorem test_decode_block_io_2 : decodes [
    ([0x3A, 0x62, 0x03, 0x58], .outib 5 0x6 3),
    ([0x3A, 0x62, 0x03, 0x50], .otirb 5 0x6 3),
    ([0x3A, 0x6A, 0x03, 0x58], .outdb 5 0x6 3),
    ([0x3A, 0x6A, 0x03, 0x50], .otdrb 5 0x6 3),
    ([0x3B, 0x63, 0x03, 0x58], .souti 5 0x6 3),
    ([0x3B, 0x63, 0x03, 0x50], .sotir 5 0x6 3),
    ([0x3B, 0x6B, 0x03, 0x58], .soutd 5 0x6 3),
    ([0x3B, 0x6B, 0x03, 0x50], .sotdr 5 0x6 3),
    ([0x3A, 0x63, 0x03, 0x58], .soutib 5 0x6 3),
    ([0x3A, 0x63, 0x03, 0x50], .sotirb 5 0x6 3),
    ([0x3A, 0x6B, 0x03, 0x58], .soutdb 5 0x6 3),
    ([0x3A, 0x6B, 0x03, 0x50], .sotdrb 5 0x6 3)] = true := by decide

/-- `30_encoding.md` R127: unassigned words are refused, and bytes that end inside an instruction. -/
theorem test_decode_rejects :
    decode [0x36, 0x00] = .rejected .unassigned ∧ decode [0x7A, 0x01] = .rejected .unassigned ∧
      decode [0x8D, 0x17] = .rejected .unassigned ∧ decode [0x21, 0x01, 0x12] = .rejected .truncated ∧
      decode [0x21] = .rejected .truncated := by decide

/-! ## One step (`spec/95_test_vectors.md`; the vector's number stands before each test) -/

/-- The start state of the vectors: the vector table of `60_exceptions.md`, SSP 0x1E00, and the given parameters, FCW,
PC, registers, words of memory, and instruction. -/
def start (cfg : Config) (fcw pc : Word) (regs : List (Reg × Word)) (mem : List (Word × Word)) (words : List Word) :
    State :=
  let vectors : List (Word × Word) :=
    [(0x06, 0x4000), (0x08, 0x300), (0x0A, 0x4000), (0x0C, 0x310), (0x0E, 0x4000), (0x10, 0x320), (0x16, 0x4000),
      (0x18, 0x330), (0x1A, 0x4000), (0x1C, 0x340), (0x1E, 0x4000), (0x20, 0x350)]
  let s : State := { State.reset with cfg := cfg, fcw := fcw, pc := pc, ssp := 0x1E00, nsp := 0x1000 }
  let s := (vectors ++ mem).foldl (fun s p => s.writeWord .prog p.1 p.2) s
  let s := regs.foldl (fun s p => s.setRw p.1 p.2) s
  (s.placeWords pc [0, 0, 0]).placeWords pc words

/-- The answer is a next state that passes a check. -/
def next (r : Result) (p : State → Bool) : Bool :=
  match r with
  | .next t => p t
  | _ => false

/-- A trap entry with the new PC, the saved PC and the saved FCW. -/
def entered (t : State) (pc savedPc savedFcw : Word) : Bool :=
  t.pc == pc && t.fcw == 0x4000 && t.ssp == 0x1DFC && t.readWord .prog 0x1DFC == savedPc &&
    t.readWord .prog 0x1DFE == savedFcw

/- 40.1 -/
theorem test_ld_1 :
    next (step (start {} 0x40FC 0x0100 [] [] [0x2105, 0xABCD]))
      (fun t => t.pc == 0x0104 && t.rw 5 == 0xABCD && t.fcw == 0x40FC) = true := by
  decide
/- 40.2 -/
theorem test_ldb_1 :
    next (step (start {} 0x4000 0x0100 [(3, 0x1234)] [] [0xC37F]))
      (fun t => t.pc == 0x0102 && t.rw 3 == 0x7F34) = true := by
  decide
/- 40.3 -/
theorem test_ldb_2 :
    next (step (start {} 0x4000 0x0100 [(3, 0x1234)] [] [0xCB7F]))
      (fun t => t.pc == 0x0102 && t.rw 3 == 0x127F) = true := by
  decide
/- 40.4 -/
theorem test_ld_2 :
    next (step (start {} 0x4000 0x0100 [(2, 0x2000), (3, 0xBEEF)] [] [0x2F23]))
      (fun t => t.pc == 0x0102 && t.readWord .prog 0x2000 == 0xBEEF) = true := by
  decide
/- 40.5 -/
theorem test_ldk_1 :
    next (step (start {} 0x4000 0x0100 [(5, 0xFFFF)] [] [0xBD5F]))
      (fun t => t.pc == 0x0102 && t.rw 5 == 0x000F) = true := by
  decide
/- 40.6 -/
theorem test_ldl_1 :
    next (step (start {} 0x4000 0x0100 [] [] [0x1402, 0x1234, 0x5678]))
      (fun t => t.pc == 0x0106 && t.rw 2 == 0x1234 && t.rw 3 == 0x5678) = true := by
  decide
/- 40.7 -/
theorem test_ldl_traps_2 :
    next (step (start {} 0x4000 0x0100 [] [] [0x1403, 0x1234, 0x5678]))
      (fun t => entered t 0x0300 0x0106 0x4000) = true := by
  decide
/- 40.8 -/
theorem test_push_1 :
    next (step (start {} 0x4000 0x0100 [(3, 0xBEEF)] [] [0x93F3]))
      (fun t => t.pc == 0x0102 && t.rw 15 == 0x1DFE && t.readWord .prog 0x1DFE == 0xBEEF) = true := by
  decide
/- 40.10 -/
theorem test_push_2 :
    next (step (start {} 0x4000 0x0100 [] [] [0x93FF]))
      (fun t => t.pc == 0x0102 && t.rw 15 == 0x1DFE && t.readWord .prog 0x1DFE == 0x1E00) = true := by
  decide
/- 40.11 -/
theorem test_pop_1 :
    next (step (start {} 0x4000 0x0100 [(15, 0x1DFE)] [(0x1DFE, 0x3000)] [0x97FF]))
      (fun t => t.pc == 0x0102 && t.rw 15 == 0x3000) = true := by
  decide
/- 40.14 -/
theorem test_pushl_1 :
    next (step (start {} 0x4000 0x0100 [(2, 0x1122), (3, 0x3344)] [] [0x91F2]))
      (fun t => t.pc == 0x0102 && t.rw 15 == 0x1DFC && t.readWord .prog 0x1DFC == 0x1122
                   && t.readWord .prog 0x1DFE == 0x3344) = true := by
  decide
/- 40.15 -/
theorem test_ldm_1 :
    next (step (start {} 0x4000 0x0100 [(2, 0x2000)] [(0x2000, 0x0001), (0x2002, 0x0002), (0x2004, 0x0003)]
                 [0x1C21, 0x0302]))
      (fun t => t.pc == 0x0104 && t.rw 3 == 0x0001 && t.rw 4 == 0x0002 && t.rw 5 == 0x0003) = true := by
  decide
/- 40.16 -/
theorem test_ldm_2 :
    next (step (start {} 0x4000 0x0100 [(2, 0x2000)] [(0x2000, 0x0007), (0x2002, 0x0008), (0x2004, 0x0009)]
                 [0x1C21, 0x0F02]))
      (fun t => t.pc == 0x0104 && t.rw 15 == 0x0007 && t.rw 0 == 0x0008 && t.rw 1 == 0x0009) = true := by
  decide
/- 40.17 -/
theorem test_ex_1 :
    next (step (start {} 0x4000 0x0100 [(1, 0x0001), (2, 0x0002)] [] [0xAD12]))
      (fun t => t.pc == 0x0102 && t.rw 1 == 0x0002 && t.rw 2 == 0x0001) = true := by
  decide
/- 40.18 -/
theorem test_clr_1 :
    next (step (start {} 0x4000 0x0100 [(1, 0x1234)] [] [0x8D18]))
      (fun t => t.pc == 0x0102 && t.rw 1 == 0x0000 && t.fcw == 0x4000) = true := by
  decide
/- 41.1 -/
theorem test_add_1 :
    next (step (start {} 0x4000 0x0100 [(1, 0x7FFF), (2, 0x0001)] [] [0x8121]))
      (fun t => t.pc == 0x0102 && t.rw 1 == 0x8000 && !t.flagC && !t.flagZ && t.flagS && t.flagV && t.flagH) = true := by
  decide
/- 41.2 -/
theorem test_add_2 :
    next (step (start {} 0x4000 0x0100 [(1, 0xFFFF), (2, 0x0001)] [] [0x8121]))
      (fun t => t.pc == 0x0102 && t.rw 1 == 0x0000 && t.flagC && t.flagZ && !t.flagS && !t.flagV && t.flagH) = true := by
  decide
/- 41.3 -/
theorem test_addb_1 :
    next (step (start {} 0x4000 0x0100 [(1, 0xFF01)] [] [0x8091]))
      (fun t => t.pc == 0x0102 && t.rw 1 == 0x0001 && t.flagC && t.flagZ && !t.flagS && !t.flagV
                   && t.flagH && !t.flagD) = true := by
  decide
/- 41.4 -/
theorem test_sub_1 :
    next (step (start {} 0x4000 0x0100 [(1, 0x0000), (2, 0x0001)] [] [0x8321]))
      (fun t => t.pc == 0x0102 && t.rw 1 == 0xFFFF && t.flagC && !t.flagZ && t.flagS && !t.flagV && t.flagH) = true := by
  decide
/- 41.5 -/
theorem test_sub_2 :
    next (step (start {} 0x4000 0x0100 [(1, 0x8000), (2, 0x0001)] [] [0x8321]))
      (fun t => t.pc == 0x0102 && t.rw 1 == 0x7FFF && !t.flagC && !t.flagS && t.flagV && t.flagH) = true := by
  decide
/- 41.6 -/
theorem test_adc_1 :
    next (step (start {} 0x4080 0x0100 [(1, 0xFFFF), (2, 0x0000)] [] [0xB521]))
      (fun t => t.pc == 0x0102 && t.rw 1 == 0x0000 && t.flagC && t.flagZ && !t.flagV && t.flagH) = true := by
  decide
/- 41.7 -/
theorem test_sbc_1 :
    next (step (start {} 0x4080 0x0100 [(1, 0x0000), (2, 0x0000)] [] [0xB721]))
      (fun t => t.pc == 0x0102 && t.rw 1 == 0xFFFF && t.flagC && !t.flagZ && t.flagS && !t.flagV) = true := by
  decide
/- 41.8 -/
theorem test_cp_1 :
    next (step (start {} 0x4000 0x0100 [(1, 0x0003)] [] [0x0B01, 0x0005]))
      (fun t => t.pc == 0x0104 && t.flagC && !t.flagZ && t.flagS && !t.flagV && !t.flagH && !t.flagD) = true := by
  decide
/- 41.9 -/
theorem test_inc_1 :
    next (step (start {} 0x4080 0x0100 [(3, 0x0000)] [] [0xA93F]))
      (fun t => t.pc == 0x0102 && t.rw 3 == 0x0010 && !t.flagZ && !t.flagS && !t.flagV && !t.flagH && t.flagC) = true := by
  decide
/- 41.10 -/
theorem test_inc_2 :
    next (step (start {} 0x4000 0x0100 [(3, 0xFFFF)] [] [0xA930]))
      (fun t => t.pc == 0x0102 && t.rw 3 == 0x0000 && t.flagZ && !t.flagV && t.flagH && !t.flagC) = true := by
  decide
/- 41.11 -/
theorem test_dec_1 :
    next (step (start {} 0x4000 0x0100 [(3, 0x8000)] [] [0xAB30]))
      (fun t => t.pc == 0x0102 && t.rw 3 == 0x7FFF && t.flagV && !t.flagS && !t.flagZ && !t.flagC) = true := by
  decide
/- 41.12 -/
theorem test_neg_1 :
    next (step (start {} 0x4000 0x0100 [(1, 0x8000)] [] [0x8D12]))
      (fun t => t.pc == 0x0102 && t.flagC && t.flagV && t.flagS && !t.flagZ) = true := by
  decide
/- 41.13 -/
theorem test_neg_2 :
    next (step (start {} 0x4000 0x0100 [(1, 0x0000)] [] [0x8D12]))
      (fun t => t.pc == 0x0102 && !t.flagC && t.flagZ && !t.flagV && !t.flagS) = true := by
  decide
/- 41.14 -/
theorem test_com_1 :
    next (step (start {} 0x4010 0x0100 [(1, 0x00FF)] [] [0x8D10]))
      (fun t => t.pc == 0x0102 && t.rw 1 == 0xFF00 && t.flagS && !t.flagZ && !t.flagV) = true := by
  decide
/- 41.14z -/
theorem test_com_2 :
    next (step (start { flags := .zilog } 0x4010 0x0100 [(1, 0x00FF)] [] [0x8D10]))
      (fun t => t.pc == 0x0102 && t.rw 1 == 0xFF00 && t.flagS && !t.flagZ && t.flagV) = true := by
  decide
/- 41.15 -/
theorem test_mult_1 :
    next (step (start {} 0x4000 0x0100 [(1, 0x8000), (2, 0x8000)] [] [0x9920]))
      (fun t => t.pc == 0x0102 && t.rw 0 == 0x4000 && t.rw 1 == 0x0000 && t.flagC && !t.flagZ && !t.flagS && !t.flagV) = true := by
  decide
/- 41.16 -/
theorem test_mult_2 :
    next (step (start {} 0x4000 0x0100 [(1, 0xFFFE)] [] [0x1900, 0x0003]))
      (fun t => t.pc == 0x0104 && t.rw 0 == 0xFFFF && t.rw 1 == 0xFFFA && !t.flagC && t.flagS) = true := by
  decide
/- 41.17 -/
theorem test_div_1 :
    next (step (start {} 0x4000 0x0100 [(0, 0xFFFF), (1, 0xFFF9), (2, 0x0002)] [] [0x9B20]))
      (fun t => t.pc == 0x0102 && t.rw 1 == 0xFFFD && t.rw 0 == 0xFFFF && t.flagS && !t.flagZ && !t.flagC && !t.flagV) = true := by
  decide
/- 41.18 -/
theorem test_div_traps_2 :
    next (step (start {} 0x4000 0x0100 [(1, 0x0007)] [] [0x9B20]))
      (fun t => entered t 0x0300 0x0102 0x4000) = true := by
  decide
/- 41.22 -/
theorem test_addl_1 :
    next (step (start {} 0x4004 0x0100 [(0, 0xFFFF), (1, 0xFFFF), (3, 0x0001)] [] [0x9620]))
      (fun t => t.pc == 0x0102 && t.rw 0 == 0x0000 && t.rw 1 == 0x0000 && t.flagC && t.flagZ && !t.flagS
                   && !t.flagV && t.flagH) = true := by
  decide
/- 41.23 -/
theorem test_addl_2 :
    next (step (start {} 0x4000 0x0100 [(0, 0x7FFF), (1, 0xFFFF), (3, 0x0001)] [] [0x9620]))
      (fun t => t.pc == 0x0102 && t.rw 0 == 0x8000 && t.rw 1 == 0x0000 && !t.flagC && t.flagS && t.flagV) = true := by
  decide
/- 41.24 -/
theorem test_exts_1 :
    next (step (start {} 0x4000 0x0100 [(0, 0x1234), (1, 0x8000)] [] [0xB10A]))
      (fun t => t.pc == 0x0102 && t.rw 0 == 0xFFFF) = true := by
  decide
/- 41.25 -/
theorem test_extsb_1 :
    next (step (start {} 0x4000 0x0100 [(0, 0x1280)] [] [0xB100]))
      (fun t => t.pc == 0x0102 && t.rw 0 == 0xFF80) = true := by
  decide
/- 41.28 -/
theorem test_cpb_1 :
    next (step (start {} 0x4000 0x0100 [(0, 0x0080), (1, 0x0001)] [] [0x8A98]))
      (fun t => t.pc == 0x0102 && !t.flagC && !t.flagZ && !t.flagS && t.flagV) = true := by
  decide
/- 42.1 -/
theorem test_and_1 :
    next (step (start {} 0x4090 0x0100 [(1, 0xF0F0), (2, 0x0FF0)] [] [0x8721]))
      (fun t => t.pc == 0x0102 && t.rw 1 == 0x00F0 && !t.flagZ && !t.flagS && !t.flagC && !t.flagV) = true := by
  decide
/- 42.1z -/
theorem test_and_2 :
    next (step (start { flags := .zilog } 0x4090 0x0100 [(1, 0xF0F0), (2, 0x0FF0)] [] [0x8721]))
      (fun t => t.pc == 0x0102 && t.rw 1 == 0x00F0 && !t.flagZ && !t.flagS && t.flagC && t.flagV) = true := by
  decide
/- 42.2 -/
theorem test_xorb_1 :
    next (step (start {} 0x4000 0x0100 [(1, 0x0300)] [] [0x8819]))
      (fun t => t.pc == 0x0102 && t.rw 1 == 0x0303 && t.flagV && !t.flagS && !t.flagZ) = true := by
  decide
/- 42.3 -/
theorem test_xorb_2 :
    next (step (start {} 0x4000 0x0100 [(1, 0x0700)] [] [0x8819]))
      (fun t => t.pc == 0x0102 && t.rw 1 == 0x0707 && !t.flagV) = true := by
  decide
/- 42.4 -/
theorem test_test_1 :
    next (step (start {} 0x4000 0x0100 [] [] [0x8D14]))
      (fun t => t.pc == 0x0102 && t.flagZ && !t.flagS) = true := by
  decide
/- 42.5 -/
theorem test_bit_1 :
    next (step (start {} 0x4000 0x0100 [(1, 0x8000)] [] [0xA71F]))
      (fun t => t.pc == 0x0102 && t.fcw == 0x4000) = true := by
  decide
/- 42.6 -/
theorem test_bit_2 :
    next (step (start {} 0x4000 0x0100 [(1, 0x8000)] [] [0xA710]))
      (fun t => t.pc == 0x0102 && t.fcw == 0x4040) = true := by
  decide
/- 42.7 -/
theorem test_set_1 :
    next (step (start {} 0x4000 0x0100 [] [] [0xA513]))
      (fun t => t.pc == 0x0102 && t.rw 1 == 0x0008 && t.fcw == 0x4000) = true := by
  decide
/- 42.8 -/
theorem test_res_1 :
    next (step (start {} 0x4000 0x0100 [(1, 0xFFFF)] [] [0xA31F]))
      (fun t => t.pc == 0x0102 && t.rw 1 == 0x7FFF && t.fcw == 0x4000) = true := by
  decide
/- 42.10 -/
theorem test_resb_1 :
    next (step (start {} 0x4000 0x0100 [(0, 0xFF00), (1, 0x0009)] [] [0x2201, 0x0000]))
      (fun t => t.pc == 0x0104 && t.rw 0 == 0xFD00) = true := by
  decide
/- 42.11 -/
theorem test_tset_1 :
    next (step (start {} 0x4000 0x0100 [] [(0x2000, 0x0000)] [0x4D06, 0x2000]))
      (fun t => t.pc == 0x0104 && t.readWord .prog 0x2000 == 0xFFFF && !t.flagS) = true := by
  decide
/- 42.12 -/
theorem test_tset_2 :
    next (step (start {} 0x4000 0x0100 [] [(0x2000, 0xFFFF)] [0x4D06, 0x2000]))
      (fun t => t.pc == 0x0104 && t.readWord .prog 0x2000 == 0xFFFF && t.flagS) = true := by
  decide
/- 42.13 -/
theorem test_tcc_1 :
    next (step (start {} 0x4040 0x0100 [] [] [0xAF36]))
      (fun t => t.pc == 0x0102 && t.rw 3 == 0x0001) = true := by
  decide
/- 42.14 -/
theorem test_tcc_2 :
    next (step (start {} 0x4000 0x0100 [] [] [0xAF36]))
      (fun t => t.pc == 0x0102) = true := by
  decide
/- 43.1 -/
theorem test_sla_sra_1 :
    next (step (start {} 0x4090 0x0100 [(1, 0x8000)] [] [0xB319, 0x0000]))
      (fun t => t.pc == 0x0104 && !t.flagC && !t.flagV && t.flagS && !t.flagZ) = true := by
  decide
/- 43.2 -/
theorem test_sla_sra_2 :
    next (step (start {} 0x4000 0x0100 [(1, 0x0001)] [] [0xB319, 0x0010]))
      (fun t => t.pc == 0x0104 && t.rw 1 == 0x0000 && t.flagC && t.flagZ && !t.flagS && t.flagV) = true := by
  decide
/- 43.4 -/
theorem test_sll_srl_1 :
    next (step (start {} 0x4000 0x0100 [(1, 0x8000)] [] [0xB311, 0xFFF0]))
      (fun t => t.pc == 0x0104 && t.rw 1 == 0x0000) = true := by
  decide
/- 43.7 -/
theorem test_rlc_1 :
    next (step (start {} 0x4080 0x0100 [] [] [0xB318]))
      (fun t => t.pc == 0x0102 && t.rw 1 == 0x0001 && !t.flagC && !t.flagZ && !t.flagS && !t.flagV) = true := by
  decide
/- 43.8 -/
theorem test_rr_1 :
    next (step (start {} 0x4000 0x0100 [(1, 0x0003)] [] [0xB316]))
      (fun t => t.pc == 0x0102 && t.rw 1 == 0xC000 && t.flagC && t.flagS && !t.flagZ && t.flagV) = true := by
  decide
/- 43.9 -/
theorem test_sda_1 :
    next (step (start {} 0x4000 0x0100 [(1, 0x8002), (2, 0xFFFF)] [] [0xB31B, 0x0200]))
      (fun t => t.pc == 0x0104 && t.rw 1 == 0xC001 && !t.flagC && t.flagS && !t.flagV) = true := by
  decide
/- 43.10 -/
theorem test_rl_1 :
    next (step (start {} 0x4000 0x0100 [(1, 0x8001)] [] [0xB310]))
      (fun t => t.pc == 0x0102 && t.rw 1 == 0x0003 && t.flagC && !t.flagS && t.flagV) = true := by
  decide
/- 43.11 -/
theorem test_rldb_1 :
    next (step (start {} 0x4000 0x0100 [(1, 0x0A12)] [] [0xBE19]))
      (fun t => t.pc == 0x0102 && t.rw 1 == 0x012A && !t.flagZ && !t.flagS) = true := by
  decide
/- 43.rrdb -/
theorem test_rrdb_1 :
    next (step (start {} 0x4000 0x0100 [(1, 0x0A12)] [] [0xBC19]))
      (fun t => t.pc == 0x0102 && t.rw 1 == 0x02A1 && !t.flagZ && !t.flagS) = true := by
  decide
/- 43.sdal -/
theorem test_sdal_1 :
    next (step (start {} 0x4000 0x0100 [(0, 0xFFFF), (5, 0x0003)] [] [0xB34F, 0x0000]))
      (fun t => t.pc == 0x0104 && t.rw 5 == 0x0001 && t.flagC) = true := by
  decide
/- 43.rrb -/
theorem test_rrb_1 :
    next (step (start {} 0x4000 0x0100 [(1, 0x0300)] [] [0xB216]))
      (fun t => t.pc == 0x0102 && t.rw 1 == 0xC000 && t.flagC && t.flagS && t.flagV) = true := by
  decide
/- 43.slal -/
theorem test_slal_sral_1 :
    next (step (start {} 0x4000 0x0100 [(3, 0xFFFF)] [] [0xB32D, 0x0004]))
      (fun t => t.pc == 0x0104 && t.rw 2 == 0x000F && t.rw 3 == 0xFFF0 && !t.flagC && !t.flagV) = true := by
  decide
/- 43.rrcb -/
theorem test_rrcb_1 :
    next (step (start {} 0x4080 0x0100 [] [] [0xB20C]))
      (fun t => t.pc == 0x0102 && t.rw 0 == 0x8000 && !t.flagC && t.flagS && t.flagV) = true := by
  decide
/- 44.1 -/
theorem test_jr_1 :
    next (step (start {} 0x4000 0x0100 [] [] [0xE605]))
      (fun t => t.pc == 0x0102) = true := by
  decide
/- 44.2 -/
theorem test_jr_2 :
    next (step (start {} 0x4040 0x0100 [] [] [0xE605]))
      (fun t => t.pc == 0x010C) = true := by
  decide
/- 44.4 -/
theorem test_jp_1 :
    next (step (start {} 0x4000 0x0100 [] [] [0x5E00, 0x1200]))
      (fun t => t.pc == 0x0104) = true := by
  decide
/- 44.5 -/
theorem test_jp_traps_2 :
    next (step (start {} 0x4000 0x0100 [] [] [0x1E08]))
      (fun t => entered t 0x0300 0x0102 0x4000) = true := by
  decide
/- 44.6 -/
theorem test_call_1 :
    next (step (start {} 0x4000 0x0100 [] [] [0x5F00, 0x2000]))
      (fun t => t.pc == 0x2000 && t.rw 15 == 0x1DFE && t.readWord .prog 0x1DFE == 0x0104) = true := by
  decide
/- 44.8 -/
theorem test_ret_1 :
    next (step (start {} 0x4000 0x0100 [(15, 0x1DFE)] [] [0x9E06]))
      (fun t => t.pc == 0x0102 && t.rw 15 == 0x1DFE) = true := by
  decide
/- 44.7 -/
theorem test_ret_2 :
    next (step (start {} 0x4000 0x0100 [(15, 0x1DFE)] [(0x1DFE, 0x0104)] [0x9E08]))
      (fun t => t.pc == 0x0104 && t.rw 15 == 0x1E00) = true := by
  decide
/- 44.9 -/
theorem test_calr_1 :
    next (step (start {} 0x4000 0x0200 [] [] [0xD010]))
      (fun t => t.pc == 0x01E2 && t.rw 15 == 0x1DFE && t.readWord .prog 0x1DFE == 0x0202) = true := by
  decide
/- 44.10 -/
theorem test_djnz_1 :
    next (step (start {} 0x4000 0x010A [(3, 0x0001)] [] [0xF382]))
      (fun t => t.pc == 0x010C && t.rw 3 == 0x0000) = true := by
  decide
/- 44.11 -/
theorem test_djnz_2 :
    next (step (start {} 0x4000 0x010A [(3, 0x0000)] [] [0xF382]))
      (fun t => t.pc == 0x0108 && t.rw 3 == 0xFFFF) = true := by
  decide
/- 44.13 -/
theorem test_dbjnz_1 :
    next (step (start {} 0x4000 0x0200 [(0, 0x5502)] [] [0xF802]))
      (fun t => t.pc == 0x01FE && t.rw 0 == 0x5501) = true := by
  decide
/- 45.1 -/
theorem test_nop_1 :
    next (step (start {} 0x4000 0x0100 [] [] [0x8D07]))
      (fun t => t.pc == 0x0102) = true := by
  decide
/- 45.2 -/
theorem test_unassigned_traps_1 :
    next (step (start {} 0x4000 0x0100 [] [] [0x8D17]))
      (fun t => entered t 0x0300 0x0102 0x4000) = true := by
  decide
/- 45.3 -/
theorem test_halt_1 :
    next (step (start {} 0x4000 0x0100 [] [] [0x7A00]))
      (fun t => t.pc == 0x0102 && t.halt) = true := by
  decide
/- 45.4 -/
theorem test_halt_traps_2 :
    next (step (start {} 0x0040 0x0100 [] [] [0x7A00]))
      (fun t => entered t 0x0310 0x0102 0x0040) = true := by
  decide
/- 45.5 -/
theorem test_ei_1 :
    next (step (start {} 0x4000 0x0100 [] [] [0x7C04]))
      (fun t => t.pc == 0x0102 && t.fcw == 0x5800) = true := by
  decide
/- 45.6 -/
theorem test_di_1 :
    next (step (start {} 0x5800 0x0100 [] [] [0x7C01]))
      (fun t => t.pc == 0x0102 && t.fcw == 0x4800) = true := by
  decide
/- 45.7 -/
theorem test_di_traps_2 :
    next (step (start {} 0x1800 0x0100 [] [] [0x7C00]))
      (fun t => entered t 0x0310 0x0102 0x1800) = true := by
  decide
/- 45.8 -/
theorem test_ldctl_1 :
    next (step (start {} 0x4044 0x0100 [] [] [0x7D12]))
      (fun t => t.pc == 0x0102 && t.rw 1 == 0x4044) = true := by
  decide
/- 45.9 -/
theorem test_ldctl_2 :
    next (step (start {} 0x4000 0x0100 [(1, 0x00C0)] [] [0x7D1A]))
      (fun t => t.pc == 0x0102 && t.fcw == 0x00C0) = true := by
  decide
/- 45.10 -/
theorem test_unassigned_traps_2 :
    next (step (start {} 0x4000 0x0100 [] [] [0x7D18]))
      (fun t => entered t 0x0300 0x0102 0x4000) = true := by
  decide
/- 45.14 -/
theorem test_setflg_1 :
    next (step (start {} 0x4000 0x0100 [] [] [0x8DC1]))
      (fun t => t.pc == 0x0102 && t.fcw == 0x40C0) = true := by
  decide
/- 45.15 -/
theorem test_comflg_1 :
    next (step (start {} 0x40C0 0x0100 [] [] [0x8DF5]))
      (fun t => t.pc == 0x0102 && t.fcw == 0x4030) = true := by
  decide
/- 45.16 -/
theorem test_ldctlb_1 :
    next (step (start {} 0x40C0 0x0100 [] [] [0x8C81]))
      (fun t => t.pc == 0x0102 && t.rw 0 == 0x00C0) = true := by
  decide
/- 45.17 -/
theorem test_ldctlb_2 :
    next (step (start {} 0x0000 0x0100 [(1, 0x1000)] [] [0x8C19]))
      (fun t => t.pc == 0x0102 && t.fcw == 0x0010) = true := by
  decide
/- 45.18 -/
theorem test_ldps_1 :
    next (step (start {} 0x4000 0x0100 [(2, 0x2000)] [(0x2000, 0x0000), (0x2002, 0x0300)] [0x3920]))
      (fun t => t.pc == 0x0300 && t.fcw == 0x0000) = true := by
  decide
/- 45.19 -/
theorem test_sc_1 :
    next (step (start {} 0x0040 0x0200 [] [] [0x7F05]))
      (fun t => t.pc == 0x0320 && t.readWord .prog 0x1DFE == 0x0040 && t.readWord .prog 0x1DFC == 0x0202
                   && t.readWord .prog 0x1DFA == 0x0005 && t.fcw == 0x4000
                   && t.ssp == 0x1DFA) = true := by
  decide
/- 45.20 -/
theorem test_iret_1 :
    next (step (start {} 0x4000 0x0100 [(15, 0x1DFC)] [(0x1DFC, 0x0108), (0x1DFE, 0x4000)] [0x7B00]))
      (fun t => t.pc == 0x0108 && t.fcw == 0x4000 && t.ssp == 0x1E00) = true := by
  decide
/- 45.21 -/
theorem test_iret_traps_2 :
    next (step (start {} 0x0000 0x0100 [] [] [0x7B00]))
      (fun t => entered t 0x0310 0x0102 0x0000) = true := by
  decide
/- 45.22 -/
theorem test_epu_traps_1 :
    next (step (start {} 0x4000 0x0100 [] [] [0x8E00]))
      (fun t => entered t 0x0300 0x0102 0x4000) = true := by
  decide
/- 45.24 -/
theorem test_mset_traps_1 :
    next (step (start {} 0x0000 0x0100 [] [] [0x7B08]))
      (fun t => entered t 0x0310 0x0102 0x0000) = true := by
  decide
/- 46.2 -/
theorem test_in_traps_1 :
    next (step (start {} 0x0000 0x0100 [] [] [0x3B44, 0x0040]))
      (fun t => entered t 0x0310 0x0104 0x0000) = true := by
  decide
/- 46.5 -/
theorem test_out_traps_1 :
    next (step (start {} 0x4000 0x0100 [] [] [0x3F03]))
      (fun t => entered t 0x0300 0x0102 0x4000) = true := by
  decide
/- 46.6 -/
theorem test_sout_1 :
    next (step (start {} 0x4000 0x0100 [(3, 0xCAFE)] [] [0x3B37, 0x0010]))
      (fun t => t.pc == 0x0104
                   && t.io == [{ space := .special, write := true, size := .w, port := 0x10, value := (0xcafe#16) }]) = true := by
  decide
/- 47.4 -/
theorem test_ldi_1 :
    next (step (start {} 0x4000 0x0100 [(4, 0x1000), (5, 0x1100)]
                 [(0x1000, 0x1111), (0x1002, 0x2222), (0x1004, 0x3333), (0x1006, 0x4444), (0x1008, 0x5555)]
                 [0xBB41, 0x0658]))
      (fun t => t.pc == 0x0104 && t.rw 4 == 0x1002 && t.rw 5 == 0x1102 && t.rw 6 == 0xFFFF && !t.flagV) = true := by
  decide
/- 47.5 -/
theorem test_ldir_1 :
    next (step (start {} 0x4000 0x0100 [(4, 0x1000), (5, 0x1100)]
                 [(0x1000, 0x1111), (0x1002, 0x2222), (0x1004, 0x3333), (0x1006, 0x4444), (0x1008, 0x5555)]
                 [0xBB41, 0x0650]))
      (fun t => t.pc == 0x0100 && t.rw 4 == 0x1002 && t.rw 5 == 0x1102 && t.rw 6 == 0xFFFF && !t.flagV) = true := by
  decide
/- 47.6 -/
theorem test_ldir_traps_2 :
    next (step (start {} 0x4000 0x0100 [] [] [0xBB01, 0x0650]))
      (fun t => entered t 0x0300 0x0104 0x4000) = true := by
  decide
/- 47.10 -/
theorem test_trib_1 :
    next (step (start {} 0x4000 0x0100 [(4, 0x2000), (2, 0x3000), (3, 0x0003)]
                 [(0x2000, 0x0102), (0x3000, 0x0041), (0x3002, 0x4243)] [0xB840, 0x0320]))
      (fun t => t.pc == 0x0104 && t.rw 4 == 0x2001 && t.rw 3 == 0x0002
                   && t.readWord .prog 0x2000 == 0x4102 && !t.flagV) = true := by
  decide
/- 48.3 -/
theorem test_inir_traps_1 :
    next (step (start {} 0x0000 0x0100 [(1, 0x0040), (2, 0x3000), (3, 0x0002)] [] [0x3B10, 0x0320]))
      (fun t => entered t 0x0310 0x0104 0x0000) = true := by
  decide
/- 48.4 -/
theorem test_inir_traps_2 :
    next (step (start {} 0x0000 0x0100 [] [] [0x3B00, 0x0320]))
      (fun t => entered t 0x0300 0x0104 0x0000) = true := by
  decide
/- 48.5 -/
theorem test_outi_1 :
    next (step (start {} 0x4000 0x0100 [(1, 0x2000), (2, 0x0040), (3, 0x0003)]
                 [(0x2000, 0x1111), (0x2002, 0x2222), (0x2004, 0x3333), (0x2006, 0x4444), (0x3000, 0x1111), (0x3002, 0x0000), (0x3004, 0x3333)]
                 [0x3B12, 0x0328]))
      (fun t => t.pc == 0x0104 && t.rw 1 == 0x2002 && t.rw 3 == 0x0002 && !t.flagV
                   && t.io == [{ space := .std, write := true, size := .w, port := 0x40, value := (0x1111#16) }]) = true := by
  decide

/-! ## Stops (`45_system.md` R455, R460) -/

theorem test_epu_is_refused_with_epa_set : step (start {} 0x6000 0x0100 [] [] [0x8E00]) = .refused .epuAbsent := by rfl

theorem test_mset_is_refused_in_system_mode : step (start {} 0x4000 0x0100 [] [] [0x7B08]) = .refused .multiMicro := by
  rfl

/-! ## The invariant and the interrupt lines -/

theorem test_reset_memories_are_canonical : State.reset.prog.wf = true ∧ State.reset.data.wf = true := by decide

/-- `70_reset_and_hazards.md` R706: after creation with the preamble's vector, FCW 0x4000 and PC 0x0100. -/
theorem test_reset_vector : State.reset.fcw = 0x4000 ∧ State.reset.pc = 0x0100 := by decide

/-! ## Bus accesses (`20_memory.md` R86 to R88, R92, R100) -/

/-- The kind, whether it is a write, and the address of each access of a step to memory or a port. -/
def busOf (s : State) : List (AccessKind × Bool × Word) := s.stepBus.map fun x => (x.kind, x.write, x.addr)

/-- A long load from memory: two fetches, then two word reads, the high word first (R83). -/
theorem test_bus_of_ldl : busOf (start {} 0x4000 0x0100 [] [] [0x5402, 0x1234]) =
    [(.fetch, false, 0x0100), (.fetch, false, 0x0102), (.data, false, 0x1234), (.data, false, 0x1236)] := by decide

/-- PUSH of a word in memory: the source is data, the store is the stack side. -/
theorem test_bus_of_push : busOf (start {} 0x4000 0x0100 [(3, 0x2000)] [] [0x13F3]) =
    [(.fetch, false, 0x0100), (.data, false, 0x2000), (.stack, true, 0x1DFE)] := by decide

/-- SC: two writes on the system stack, then the two vector reads (`60_exceptions.md` R620). -/
theorem test_bus_of_sc : (start {} 0x4000 0x0100 [] [] [0x7F05]).stepBus.map (fun x => (x.kind, x.write)) =
    [(.fetch, false), (.stack, true), (.stack, true), (.stack, true), (.data, false), (.data, false)] := by decide

/-- A privileged instruction in normal mode reads no port. -/
theorem test_bus_of_in_trap : busOf (start {} 0x0000 0x0100 [] [] [0x3B44, 0x0040]) =
    [(.fetch, false, 0x0100), (.fetch, false, 0x0102), (.stack, true, 0x1DFE), (.stack, true, 0x1DFC),
      (.data, false, 0x000A), (.data, false, 0x000C)] := by decide

/-- An accepted interrupt fetches nothing; an idle step makes no access. -/
theorem test_bus_of_boundary :
    busOf ({ start {} 0x4000 0x0100 [] [] [0x8D07] with nmiPending := true } : State) =
      [(.stack, true, 0x1DFE), (.stack, true, 0x1DFC), (.data, false, 0x0016), (.data, false, 0x0018)] ∧
    busOf ({ start {} 0x4000 0x0100 [] [] [0x8D07] with halt := true } : State) = [] := by decide

/-- The step appends them to those already there. -/
theorem test_bus_is_appended : next (step (start {} 0x4000 0x0100 [] [] [0x3F12]))
    (fun t => t.bus == State.reset.bus ++ (start {} 0x4000 0x0100 [] [] [0x3F12]).stepBus) = true := by decide

/-- Creation with the boot example's reset vector in PROG and the default parameters is `State.reset` with that memory. -/
theorem test_create :
    let boot : Memory := [(0x02, 0x40), (0x03, 0x00), (0x04, 0x01), (0x05, 0x00)]
    State.create {} boot [] = { State.reset with prog := boot } := by decide

/-- A byte that nothing has written is the free value of its space and address; one that was is the byte. -/
theorem test_unwritten_byte :
    State.reset.readByte .prog 0x2000 = Config.freeByte .prog 0x2000 ∧
      State.reset.readByte .data 0x2000 = Config.freeByte .prog 0x2000 ∧
      (State.reset.hostWrite .data 0x2000 0x5A).readByte .prog 0x2000 = 0x5A ∧
      ({ State.reset with cfg := { separateData := true } } : State).readByte .data 0x2000 = Config.freeByte .data 0x2000 :=
  ⟨rfl, rfl, rfl, rfl⟩

/-- 60.1: an NVI request is accepted at the boundary after EI. -/
theorem test_nvi_is_accepted :
    next (step ((start {} 0x4800 0x0102 [] [] [0x8D07]).setInputLine .nvi true))
      (fun t => entered t 0x0340 0x0102 0x4800 && !t.nviReq) = true := by decide

/-- R647: a halted core leaves the state for an NMI, edge triggered. -/
theorem test_nmi_wakes_a_halted_core :
    next (step (({ start {} 0x4000 0x0102 [] [] [] with halt := true }).setInputLine .nmi true))
      (fun t => entered t 0x0330 0x0102 0x4000 && !t.halt && !t.nmiPending && t.nmiLine) = true := by decide

/-- 60.4: a VI under `P_VI_INDEXED`. -/
theorem test_vi_indexed :
    next (step (((start { viIndexed := true } 0x5000 0x0100 [] [(0x62, 0x400)] [0x8D07]).setIrqVector 0x21).setInputLine
      .vi true)) (fun t => t.pc == 0x0400 && t.ssp == 0x1DFA && t.readWord .prog 0x1DFA == 0x21) = true := by decide

/-! ## Witnesses: the hypotheses of each statement can be met, each clause at a boundary -/

/-- A state in system mode, and one in normal mode. -/
def sys : State := start {} 0x4000 0x0100 [] [] []
def user : State := start {} 0x0000 0x0100 [] [] []

theorem witness_DecodeInvertsEncode :
    (Instr.ld 15 (.src (.mem (.x 0xFFFF 15)))).wf = true ∧ (Instr.ldm 15 (.ir 15) 15).wf = true ∧
      (Instr.divl 12 (.imm 0xFFFFFFFF)).wf = true ∧ (Instr.calr 0xFFF).wf = true ∧
      (Instr.cpsdrb 1 1 0 .nc).wf = true := by decide

theorem witness_UncheckedSecondWordBitsAreIgnored :
    secondWordFields 0x7010 = some 0x0F00 ∧ secondWordFields 0x77FF = some 0x0F00 ∧ secondWordFields 0x2200 = some 0x0F00 ∧
      secondWordFields 0x270F = some 0x0F00 ∧ secondWordFields 0xB2F3 = some 0x0F00 ∧ secondWordFields 0xB30F = some 0x0F00 ∧
      secondWordFields 0x1C11 = some 0x0F0F ∧ secondWordFields 0x5C09 = some 0x0F0F ∧ secondWordFields 0xB810 = some 0x0FFF ∧
      secondWordFields 0xBBFE = some 0x0FFF ∧ secondWordFields 0x3A13 = some 0x0FFF ∧ secondWordFields 0x3BF8 = some 0x0FFF := by
  decide

theorem witness_FirstWordDecidesLength :
    decodeWords 0xBB41 0x0650 0 = some (.ldir 5 4 6) ∧ decodeWords 0xBB41 0x0658 1 = some (.ldi 5 4 6) := by decide

/-- No RESET word without `P_RESET_OPCODE`. -/
theorem notResetWord_of_none {s : State} (h : s.cfg.resetOpcode = none) : s.NotResetWord := by
  intro mask value hm
  rw [h] at hm
  cases hm

/-- Unassigned words of each shape, each one beside an assigned one. -/
theorem witness_UnassignedWordsTrap :
    let f := fun w : Word => start {} 0x4000 0x0100 [] [] [w]
    let rejected := fun w : Word => decodeWords ((f w).readWord .prog (f w).pc) ((f w).readWord .prog ((f w).pc + 2))
      ((f w).readWord .prog ((f w).pc + 4)) = none
    (f 0x3600).NotResetWord ∧ (f 0x3600).acceptable = none ∧ (f 0x3600).halt = false ∧ rejected 0x3600 ∧ rejected 0xBFFF ∧
      rejected 0x7A01 ∧ rejected 0x7D00 ∧ rejected 0x8D17 ∧ rejected 0x1F11 ∧ rejected 0x7C08 ∧ rejected 0x7BFB ∧
      unassigned 0x8D07 = false ∧ unassigned 0x1F10 = false ∧ unassigned 0x7C07 = false ∧ unassigned 0x7BFD = false :=
  ⟨notResetWord_of_none (by decide), by decide⟩

theorem witness_ByteRegisterViews :
    ((3 : Reg) ≠ 11 ∧ (11 : Reg) ≠ (if (3 : Reg).toNat < 8 then 3 else 3 - 8)) ∧
      ((0 : Reg) ≠ 15 ∧ (15 : Reg) ≠ (if (15 : Reg).toNat < 8 then 15 else 15 - 8)) := by decide

theorem witness_LongAndQuadRegisterViews :
    ((14 : Reg).toNat % 2 = 0 ∧ (0 : Reg) ≠ 14 ∧ (0 : Reg) ≠ 14 + 1) ∧
      ((12 : Reg).toNat % 4 = 0 ∧ (0 : Reg) ∉ [12, 12 + 1, 12 + 2, (12 + 3 : Reg)]) := by decide

theorem witness_StackPointerBanking : sys.fcw.getLsbD 14 = true ∧ user.fcw.getLsbD 14 = false ∧ (14 : Reg) ≠ 15 := by decide

theorem witness_MemoryAccessesAreBigEndian :
    let e : Word := 0xFFFF &&& 0xFFFE
    ((0x0000 : Word) ≠ e ∧ (0x0000 : Word) ≠ e + 1) ∧ ((0x0002 : Word) ∉ [e, e + 1, e + 2, e + 3]) ∧
      (Space.data ≠ Space.prog ∧ (start { separateData := true } 0x4000 0x0100 [] [] []).cfg.separateData = true) := by decide

theorem witness_LoadsWriteTheRegister :
    (Instr.ld 15 (.based (.bx 15 1))).wf = true ∧ (Instr.ldb 15 (.src (.mem (.ir 1)))).wf = true ∧
      (Instr.ldl 14 (.src (.reg 14))).wf = true ∧ (8 : Reg) ≠ 0 := by decide

theorem witness_RelativeAndConstantLoads :
    (Instr.ldrl 14 0xFFFF).wf = true ∧ (Instr.lda 0 (.based (.ba 15 0xFFFF))).wf = true ∧ (0 : Reg) ≠ 15 := by decide

theorem witness_StoresWriteOnlyTheirBytes :
    (Instr.ldSt (.mem (.ir 15)) 15).wf = true ∧ (Instr.ldbSt (.based (.bx 1 15)) 8).wf = true ∧
      (Instr.ldlSt (.mem (.da 0xFFFF)) 14).wf = true ∧ (Instr.ldImm (.x 0xFFFF 1) 0xFFFF).wf = true ∧
      (Instr.ldbImm (.ir 1) 0xFF).wf = true ∧ (Instr.ldrlSt 0xFFFF 14).wf = true := by decide

theorem witness_LoadAndStoreMultiple :
    (Instr.ldm 15 (.da 0xFFFE) 15).wf = true ∧ (Instr.ldmSt (.ir 15) 15 0).wf = true ∧ 15 ≤ (15 : BitVec 4).toNat ∧
      0 ≤ (0 : BitVec 4).toNat := by decide

theorem witness_ClearAndExchange :
    (Instr.clr (.reg 15)).wf = true ∧ (Instr.clrb (.mem (.ir 15))).wf = true ∧ (Instr.ex 1 (.reg 1)).wf = true ∧
      (Instr.exb 15 (.mem (.x 0xFFFF 7))).wf = true ∧ RegMem.reg 7 ≠ .reg 15 ∧ (8 : Reg) ≠ 15 := by decide

theorem witness_PushAndPop :
    (Instr.push 15 (.reg 15)).wf = true ∧ (Instr.pushl 1 (.reg 14)).wf = true ∧ (Instr.pop (.reg 1) 15).wf = true ∧
      (15 : Reg) ∉ RegMem.regs .w (.reg 1) ∧ (Instr.popl (.mem (.ir 15)) 15).wf = true ∧
      (15 : Reg) ∉ RegMem.regs .l (.mem (.ir 15)) := by decide

theorem witness_WordAndLongAddSubtract :
    (Instr.add 15 (.imm 0xFFFF)).wf = true ∧ (Instr.sub 0 (.mem (.ir 15))).wf = true ∧ (Instr.addl 14 (.reg 0)).wf = true ∧
      (Instr.subl 0 (.reg 14)).wf = true := by decide

theorem witness_ByteAddSubtract :
    (Instr.addb 15 (.imm 0xFF)).wf = true ∧ (Instr.subb 8 (.mem (.ir 15))).wf = true ∧ (8 : Reg) ≠ 0 := by decide

theorem witness_ComparesWriteFlagsOnly :
    (Instr.cp 15 (.imm 0xFFFF)).wf = true ∧ (Instr.cpb 15 (.reg 8)).wf = true ∧ (Instr.cpl 14 (.reg 14)).wf = true ∧
      (Instr.cpImm (.ir 15) 0xFFFF).wf = true ∧ (Instr.cpbImm (.x 0 1) 0xFF).wf = true := by decide

theorem witness_ComparisonSetsTheConditions :
    (Instr.cp 15 (.imm 0xFFFF)).wf = true ∧ ∃ t, exec (.cp 15 (.imm 0xFFFF)) sys = .next t := ⟨by decide, _, rfl⟩

theorem witness_IncrementAndDecrement :
    (Instr.inc (.reg 15) 15).wf = true ∧ (Instr.incb (.mem (.ir 1)) 0).wf = true ∧ (Instr.dec (.mem (.da 0xFFFF)) 15).wf = true ∧
      (Instr.decb (.reg 8) 0).wf = true ∧ RegMem.reg 8 ≠ .reg 0 := by decide

theorem witness_NegateAndComplement :
    (Instr.neg (.reg 15)).wf = true ∧ (Instr.negb (.reg 8)).wf = true ∧ (Instr.com (.mem (.ir 15))).wf = true ∧
      (Instr.comb (.mem (.x 0 15))).wf = true ∧ RegMem.reg 8 ≠ .reg 0 := by decide

theorem witness_MultiplyGivesTheSignedProduct :
    (Instr.mult 14 (.imm 0x8000)).wf = true ∧ (Instr.multl 12 (.reg 14)).wf = true := by decide

/-- Quotients at the ends of the signed range, and just outside it. -/
theorem witness_DivideOrTrap :
    (Instr.div 2 (.reg 4)).wf = true ∧ (Instr.divl 4 (.reg 8)).wf = true ∧
    (let s := start {} 0x4000 0x0100 [(2, 0), (3, 0x7FFF), (4, 1)] [] [];
      IsQuotient (s.rr 2).toInt (Src.value s (.reg 4 : Src .w)).toInt 0x7FFF 0) ∧
    (let s := start {} 0x4000 0x0100 [(2, 0xFFFF), (3, 0x8000), (4, 1)] [] [];
      IsQuotient (s.rr 2).toInt (Src.value s (.reg 4 : Src .w)).toInt (-0x8000) 0) ∧
    (let s := start {} 0x4000 0x0100 [(2, 0), (3, 0x8000), (4, 1)] [] [];
      IsQuotient (s.rr 2).toInt (Src.value s (.reg 4 : Src .w)).toInt 0x8000 0) ∧
    (let s := start {} 0x4000 0x0100 [(2, 1), (3, 0), (4, 0)] [] [];
      (Src.value s (.reg 4 : Src .w)).toInt = 0) ∧
    (let s := start {} 0x4000 0x0100 [(6, 0x7FFF), (7, 0xFFFF), (9, 1)] [] [];
      IsQuotient (s.rq 4).toInt (Src.value s (.reg 8 : Src .l)).toInt 0x7FFFFFFF 0) ∧
    (let s := start {} 0x4000 0x0100 [(4, 0xFFFF), (5, 0xFFFF), (6, 0x8000), (9, 1)] [] [];
      IsQuotient (s.rq 4).toInt (Src.value s (.reg 8 : Src .l)).toInt (-0x80000000) 0) ∧
    (let s := start {} 0x4000 0x0100 [(6, 0x8000), (9, 1)] [] [];
      IsQuotient (s.rq 4).toInt (Src.value s (.reg 8 : Src .l)).toInt 0x80000000 0) ∧
    (let s := start {} 0x4000 0x0100 [(6, 1)] [] [];
      (Src.value s (.reg 8 : Src .l)).toInt = 0) :=
  ⟨by decide, by decide, ⟨by decide, by decide, by decide⟩, ⟨by decide, by decide, by decide⟩,
    ⟨by decide, by decide, by decide⟩, by decide, ⟨by decide, by decide, by decide⟩, ⟨by decide, by decide, by decide⟩,
    ⟨by decide, by decide, by decide⟩, by decide⟩

theorem witness_SignExtensions : (Instr.exts 14).wf = true ∧ (Instr.extsl 12).wf = true := by decide

theorem witness_DecimalAdjust : (8 : Reg) ≠ 0 := by decide

theorem witness_LogicalOperationsAndTests :
    (Instr.and 15 (.imm 0)).wf = true ∧ (Instr.or 0 (.mem (.ir 1))).wf = true ∧ (Instr.xor 15 (.reg 15)).wf = true ∧
      (Instr.andb 15 (.imm 0)).wf = true ∧ (Instr.orb 0 (.reg 8)).wf = true ∧ (Instr.xorb 8 (.reg 8)).wf = true ∧
      (Instr.test (.reg 15)).wf = true ∧ (Instr.testb (.mem (.da 0))).wf = true ∧ (Instr.testl (.reg 14)).wf = true ∧
      (8 : Reg) ≠ 0 := by decide

theorem witness_BitInstructions :
    (Instr.bit (.reg 15) 15).wf = true ∧ (Instr.bitb (.mem (.ir 1)) 15).wf = true ∧ (Instr.set (.reg 0) 0).wf = true ∧
      (Instr.setb (.reg 8) 8).wf = true ∧ (Instr.res (.mem (.x 0 15)) 15).wf = true ∧ (Instr.resb (.reg 15) 7).wf = true ∧
      RegMem.reg 8 ≠ .reg 0 := by decide

theorem witness_TestAndSetAndTestCondition :
    (Instr.tset (.reg 15)).wf = true ∧ (Instr.tsetb (.mem (.ir 15))).wf = true ∧ RegMem.mem (.ir 15) ≠ .reg 0 ∧
      (8 : Reg) ≠ 0 := by decide

theorem witness_Rotates : (8 : Reg) ≠ 0 := by decide

/-- Counts at both ends of the range of each width. -/
theorem witness_ArithmeticShifts :
    (-(Size.w.bits : Int) ≤ (0xFFF0 : Word).toInt ∧ (0x0010 : Word).toInt ≤ Size.w.bits) ∧
      (-(Size.b.bits : Int) ≤ (0xFFF8 : Word).toInt ∧ (0x0008 : Word).toInt ≤ Size.b.bits) ∧
      (-(Size.l.bits : Int) ≤ (0xFFE0 : Word).toInt ∧ (0x0020 : Word).toInt ≤ Size.l.bits) ∧ (14 : Reg).toNat % 2 = 0 := by
  decide

theorem witness_LogicalShifts :
    (-(Size.w.bits : Int) ≤ (0xFFF0 : Word).toInt ∧ (0xFFF0 : Word).toInt ≤ Size.w.bits) ∧
      (-(Size.b.bits : Int) ≤ (0x0000 : Word).toInt ∧ (0x0000 : Word).toInt ≤ Size.b.bits) ∧
      (-(Size.l.bits : Int) ≤ (0x0020 : Word).toInt ∧ (0x0020 : Word).toInt ≤ Size.l.bits) ∧ (0 : Reg).toNat % 2 = 0 := by
  decide

theorem witness_ShiftsByAnyCountComplete : (14 : Reg).toNat % 2 = 0 ∧ (8 : Reg) ≠ 0 := by decide

theorem witness_DigitRotates : (0 : Reg) ≠ 8 ∧ (15 : Reg) ≠ 0 ∧ (15 : Reg) ≠ 8 := by decide

theorem witness_Jumps : (Instr.jp .t (.ir 15)).wf = true ∧ (Instr.jp .f (.da 0xFFFF)).wf = true ∧ (8 : Reg) ≠ 0 := by decide

theorem witness_CallsAndReturns :
    (Instr.call (.ir 15)).wf = true ∧ (Instr.call (.x 0xFFFF 1)).wf = true ∧ sys.holds .t = true ∧ sys.holds .f = false := by
  decide

theorem witness_NopHaltAndInterruptMasks : sys.sysMode = true := by decide

theorem witness_LoadStatusAndReturnFromInterrupt :
    (Instr.ldps (.ir 15)).wf = true ∧ (Instr.ldps (.da 0xFFFE)).wf = true ∧ sys.sysMode = true := by decide

theorem witness_FlagInstructions : 3 < 4 ∧ 0 < 4 ∧ (8 : Reg) ≠ 0 := by decide

theorem witness_ControlRegisterMoves : sys.sysMode = true ∧ sys.cfg.psapMask = .all ∧
    (start { psapMask := .page } 0x4000 0x0100 [] [] []).cfg.psapMask ≠ .all := by decide

/-- Both stops, and the states in which the same instructions take a trap. -/
theorem witness_StopsAreExactlyTheSpecs :
    (Instr.isMultiMicro (.mreq 0) = true ∧ sys.sysMode = true ∧ user.sysMode = false) ∧
      ((start {} 0x2000 0x0100 [] [] []).epa = true ∧ sys.epa = false) := by decide

theorem witness_InputAndOutput : sys.sysMode = true ∧ (1 : Reg) ≠ 0 ∧ (15 : Reg) ≠ 0 := by decide

theorem witness_BlockTransferIteration : (1 : Reg) ≠ 0 ∧ (15 : Reg) ≠ 0 := by decide

theorem witness_BlockCompareIteration : (1 : Reg) ≠ 0 ∧ (15 : Reg) ≠ 0 := by decide

theorem witness_TranslateIteration : (1 : Reg) ≠ 0 ∧ (15 : Reg) ≠ 0 := by decide

theorem witness_BlockInputAndOutputIteration : (1 : Reg) ≠ 0 ∧ (15 : Reg) ≠ 0 ∧ sys.sysMode = true := by decide

theorem witness_DecodeErrorsTrap :
    (Instr.ldSt (.mem (.ir 0)) 1).wf = false ∧ (Instr.addl 15 (.reg 0)).wf = false ∧ (Instr.divl 14 (.reg 0)).wf = false ∧
      (Instr.outInd 0 1).wf = false ∧ (Instr.otdrb 1 0 2).wf = false ∧ sys.epa = false ∧ user.epa = false := by decide

theorem witness_PrivilegedInstructionsTrapInNormalMode :
    Instr.isPrivileged .halt = true ∧ Instr.halt.wf = true ∧ Instr.isPrivileged (.sotdrb 15 1 0) = true ∧
      (Instr.sotdrb 15 1 0).wf = true ∧ user.sysMode = false := by decide

/-- Each rank of the priority, with the lower requests pending as well. -/
theorem witness_BoundaryAcceptsOrIdles :
    ({ sys with nmiPending := true, viReq := true, nviReq := true } : State).nmiPending = true ∧
    (let s : State := { sys with fcw := 0x5800, viReq := true, nviReq := true };
      s.nmiPending = false ∧ s.viReq = true ∧ s.fcw.getLsbD 12 = true) ∧
    (let s : State := { sys with fcw := 0x4800, viReq := true, nviReq := true };
      s.nmiPending = false ∧ (s.viReq = false ∨ s.fcw.getLsbD 12 = false) ∧ s.nviReq = true ∧ s.fcw.getLsbD 11 = true) ∧
    (let s : State := { sys with halt := true, viReq := true, nviReq := true };
      s.halt = true ∧ s.nmiPending = false ∧ (s.viReq = false ∨ s.fcw.getLsbD 12 = false) ∧
        (s.nviReq = false ∨ s.fcw.getLsbD 11 = false)) := by decide

theorem witness_NormalModeIsLeftByTrapsOnly :
    user.sysMode = false ∧ (∃ t, exec (.ldctlbWrite 1) user = .next t) ∧ (∃ t, exec (.sc 5) user = .next t) ∧
      (∃ t, exec .halt user = .next t) ∧ ∃ t, exec (.epu .p0E 0) user = .next t :=
  ⟨by decide, ⟨_, rfl⟩, ⟨_, rfl⟩, ⟨_, rfl⟩, _, rfl⟩

theorem witness_StepRunsTheDecodedInstruction :
    let s := start {} 0x4000 0x0100 [] [] [0x8121]
    let r := start {} 0x4000 0x0100 [] [] [0x7B0A]
    (s.acceptable = none ∧ s.halt = false ∧ s.NotResetWord ∧ decode (bytesOf [s.readWord .prog s.pc,
      s.readWord .prog (s.pc + 2), s.readWord .prog (s.pc + 4)]) = .ok (.add 1 (.reg 2)) [0, 0, 0, 0]) ∧
      (∃ t, exec (.add 1 (.reg 2)) (s.setPc (s.pc + 2 * BitVec.ofNat 16 1)) = .next t) ∧
      (decode (bytesOf [r.readWord .prog r.pc, r.readWord .prog (r.pc + 2), r.readWord .prog (r.pc + 4)]) =
        .ok .mbit [0, 0, 0, 0]) ∧ exec .mbit (r.setPc (r.pc + 2 * BitVec.ofNat 16 1)) = .refused .multiMicro :=
  ⟨⟨by decide, by decide, notResetWord_of_none (by decide), by decide⟩, ⟨_, rfl⟩, by decide, rfl⟩

theorem witness_EveryStepKeepsTheInvariant :
    (start {} 0x4000 0x0100 [] [] [0x8D07]).Inv ∧ ∃ t, step (start {} 0x4000 0x0100 [] [] [0x8D07]) = .next t :=
  ⟨by unfold State.Inv; decide, _, rfl⟩

theorem witness_ResetSequence :
    let s := start { resetOpcode := some (0xFFFF, 0x7A01) } 0x4000 0x0100 [] [] [0x7A01]
    let u := start { resetOpcode := some (0xFF00, 0x3600) } 0x0000 0x0100 [] [] [0x36FF]
    (s.acceptable = none ∧ s.halt = false ∧ ¬ s.NotResetWord ∧ s.sysMode = true) ∧
      (u.acceptable = none ∧ u.halt = false ∧ ¬ u.NotResetWord ∧ u.sysMode = false) :=
  ⟨⟨by decide, by decide, fun h => h 0xFFFF 0x7A01 (by decide) (by decide), by decide⟩,
    by decide, by decide, fun h => h 0xFF00 0x3600 (by decide) (by decide), by decide⟩

/-- Each reason to return: the stop flag, the used budget, a halted core. -/
theorem witness_RunReturnsForAStatedReason :
    ({ sys with stop := true } : State).run 5 = .next (0, { sys with stop := false }) ∧ sys.run 0 = .next (0, sys) ∧
      ({ sys with halt := true } : State).run 1 = .next (0, { sys with halt := true }) := by
  have idle : ∀ s : State, s.stop = false → s.halt = true → s.acceptable = none → s.run 1 = .next (0, s) := by
    intro s h1 h2 h3
    simp [State.run, runLoop, h1, h2, h3]
  refine ⟨by simp [State.run, runLoop], ?_, idle _ (by decide) rfl (by decide)⟩
  have hs : sys.stop = false := by decide
  simp [State.run, runLoop, hs]

/-- A step that runs, one that accepts each interrupt, one that idles, one at a rejected word, one at a RESET word in each
mode; then an instruction of each table, a privileged one, a quotient at an end of its range and beyond, a zero divisor, an
EPU word, an ill-formed term. -/
theorem witness_BusAccessesAreRecorded :
    let s := start {} 0x4000 0x0100 [] [] [0x13F3]
    let d := fun hi lo by_ : Word => start {} 0x4000 0x0100 [(2, hi), (3, lo), (4, by_)] [] []
    (s.acceptable = none ∧ s.halt = false ∧ s.NotResetWord ∧ decode (bytesOf [s.readWord .prog s.pc,
      s.readWord .prog (s.pc + 2), s.readWord .prog (s.pc + 4)]) = .ok (.push 15 (.mem (.ir 3))) [0, 0, 0, 0] ∧
      ∃ t, step s = .next t) ∧
    (({ sys with nmiPending := true, viReq := true } : State).acceptable = some .nmi ∧
      ({ sys with fcw := 0x5800, viReq := true, nviReq := true } : State).acceptable = some .vi ∧
      ({ sys with fcw := 0x4800, viReq := true, nviReq := true, halt := true } : State).acceptable = some .nvi ∧
      ({ sys with halt := true, viReq := true } : State).acceptable = none) ∧
    (let j := start {} 0x4000 0x0100 [] [] [0x8D17];
      j.acceptable = none ∧ j.halt = false ∧ j.NotResetWord ∧ decodeWords (j.readWord .prog j.pc)
        (j.readWord .prog (j.pc + 2)) (j.readWord .prog (j.pc + 4)) = none) ∧
    (let r := fun fcw : Word => start { resetOpcode := some (0xFF00, 0x3600) } fcw 0x0100 [] [] [0x36FF];
      ((r 0x4000).acceptable = none ∧ (r 0x4000).halt = false ∧ ¬ (r 0x4000).NotResetWord ∧ (r 0x4000).sysMode = true) ∧
      ((r 0).acceptable = none ∧ (r 0).halt = false ∧ ¬ (r 0).NotResetWord ∧ (r 0).sysMode = false)) ∧
    ((Instr.ld 0 (.src (.mem (.ir 15)))).wf = true ∧ (Instr.push 15 (.mem (.ir 3))).wf = true ∧ (Instr.inInd 15 1).wf = true ∧
      (Instr.otdrb 1 15 0).wf = true ∧ (Instr.jp .t (.ir 15)).wf = true ∧ sys.sysMode = true) ∧
    ((Instr.div 2 (.reg 4)).wf = true ∧
      IsQuotient ((d 0 0x7FFF 1).rr 2).toInt (Src.value (d 0 0x7FFF 1) (.reg 4 : Src .w)).toInt 0x7FFF 0 ∧
      IsQuotient ((d 0 0x8000 1).rr 2).toInt (Src.value (d 0 0x8000 1) (.reg 4 : Src .w)).toInt 0x8000 0 ∧
      (Src.value (d 0 1 0) (.reg 4 : Src .w)).toInt = 0) ∧
    (sys.epa = false ∧ (Instr.addl 15 (.reg 0)).wf = false ∧ Instr.halt.wf = true ∧ Instr.isPrivileged .halt = true ∧
      user.sysMode = false) :=
  ⟨⟨by decide, by decide, notResetWord_of_none (by decide), by decide, _, rfl⟩, by decide,
    ⟨by decide, by decide, notResetWord_of_none (by decide), by decide⟩,
    ⟨⟨by decide, by decide, fun h => h 0xFF00 0x3600 (by decide) (by decide), by decide⟩,
      by decide, by decide, fun h => h 0xFF00 0x3600 (by decide) (by decide), by decide⟩, by decide,
    ⟨by decide, ⟨by decide, by decide, by decide⟩, ⟨by decide, by decide, by decide⟩, by decide⟩, by decide⟩

end Sys2Proof.Tests
end

section
/-! PROOFS of the statements about `10_state.md`: register views (R33 to R38), the step of one instruction (R40), reset. -/
namespace Sys2Proof.Machine

variable (s : State)

/-! ## Byte registers (R33) -/

/-- The two halves of the byte registers: bit 3 of the number tells RL0 to RL7 from RH0 to RH7. -/
theorem getLsbD_three_eq (n : Reg) : n.getLsbD 3 = !decide (n.toNat < 8) := by revert n; decide

theorem byteHome_eq_ite (n : Reg) : byteHome n = if n.toNat < 8 then n else n - 8 := by revert n; decide

theorem State.rb_eq_ite (n : Reg) :
    s.rb n = if n.toNat < 8 then (s.rw n).extractLsb' 8 8 else (s.rw (n - 8)).extractLsb' 0 8 := by
  rw [State.rb, getLsbD_three_eq, byteHome_eq_ite]
  by_cases h : n.toNat < 8 <;> simp [h, Word.hi, Word.lo]

/-- Settles O6: a byte register is a half of its home word, and a write is seen through that half and that word alone. -/
theorem byteRegisterViews : Obligations.ByteRegisterViews := by
  intro s n m v
  refine ⟨s.rb_eq_ite n, s.rb_setRb_same n v, fun hm => ?_, fun hm => ?_⟩
  · rw [State.rb_setRb, if_neg hm]
  · exact s.rw_setRb_of_ne (byteHome_eq_ite n ▸ hm) v

/-! ## Long and quad registers (R34 to R36) -/

theorem State.rw_setRr_views (n : Reg) (v : Long) :
    (s.setRr n v).rw n = v.extractLsb' 16 16 ∧ (s.setRr n v).rw (n + 1) = v.extractLsb' 0 16 := by
  simp [State.rw_setRr]

theorem State.rw_setRr_of_ne {n m : Reg} (h0 : m ≠ n) (h1 : m ≠ n + 1) (v : Long) :
    (s.setRr n v).rw m = s.rw m := by
  rw [State.rw_setRr, if_neg h1, if_neg h0]

theorem State.rq_eq_words (n : Reg) :
    s.rq n = s.rw n ++ s.rw (n + 1) ++ (s.rw (n + 2) ++ s.rw (n + 3)) := by
  rw [State.rq, State.rr, State.rr, reg_add_two_one]

theorem State.rw_setRq_views (n : Reg) (q : Quad) :
    (s.setRq n q).rw n = q.extractLsb' 48 16 ∧ (s.setRq n q).rw (n + 1) = q.extractLsb' 32 16 ∧
      (s.setRq n q).rw (n + 2) = q.extractLsb' 16 16 ∧ (s.setRq n q).rw (n + 3) = q.extractLsb' 0 16 := by
  obtain ⟨h03, h02, h01, h13, h12, h23⟩ := regs_distinct n
  simp only [State.rw_setRq, if_neg h03, if_neg h02, if_neg h01, if_neg h13, if_neg h12, if_neg h23, if_true, and_self]

theorem State.rw_setRq_of_not_mem {n m : Reg} (h : m ∉ [n, n + 1, n + 2, n + 3]) (q : Quad) :
    (s.setRq n q).rw m = s.rw m := by
  simp only [List.mem_cons, List.not_mem_nil, or_false, not_or] at h
  obtain ⟨h0, h1, h2, h3⟩ := h
  rw [State.rw_setRq, if_neg h3, if_neg h2, if_neg h1, if_neg h0]

/-- The byte registers that cover RR[0] hold its four bytes, whatever the state (R36). -/
theorem State.rb_setRr_zero (v : Long) :
    (s.setRr 0 v).rb 0 = v.extractLsb' 24 8 ∧ (s.setRr 0 v).rb 8 = v.extractLsb' 16 8 ∧
      (s.setRr 0 v).rb 1 = v.extractLsb' 8 8 ∧ (s.setRr 0 v).rb 9 = v.extractLsb' 0 8 := by
  simp [State.rb_eq_ite, State.rw_setRr, slice_slice]

/-- Settles O7: each view is the words it covers, high word first, so the rule of a word read after a long or quad write
gives every clause; the worked example is RR[0] seen through bytes. -/
theorem longAndQuadRegisterViews : Obligations.LongAndQuadRegisterViews := by
  intro s n m v q
  obtain ⟨long0, long1⟩ := s.rw_setRr_views n v
  obtain ⟨quad0, quad1, quad2, quad3⟩ := s.rw_setRq_views n q
  exact ⟨fun _ => ⟨rfl, long0, long1, fun h0 h1 => s.rw_setRr_of_ne h0 h1 v⟩,
    fun _ => ⟨s.rq_eq_words n, quad0, quad1, quad2, quad3, fun h => s.rw_setRq_of_not_mem h q⟩,
    s.rb_setRr_zero 0x11223344⟩

/-! ## The banked stack pointer (R37, R38) -/

/-- R0 to R14 are not banked: the FCW does not bear on them. -/
theorem State.rw_writeFcw_of_ne {n : Reg} (h : n ≠ 15) (f : Word) : (s.writeFcw f).rw n = s.rw n := by
  have hn : n.toNat < 15 := (reg_lt_or_eq n).resolve_right h
  simp [State.rw, hn]

/-- Settles O8: by the mode, R15 is one of the two stored pointers, which an FCW write selects anew and does not touch. -/
theorem stackPointerBanking : Obligations.StackPointerBanking := by
  intro s v f
  refine ⟨s.rw_fifteen, fun sys => ?_, fun normal => ?_, (s.writeFcw f).rw_fifteen, fun n hn => s.rw_writeFcw_of_ne hn f⟩
  · rw [s.setRw_fifteen_sys sys]
    exact ⟨rfl, rfl⟩
  · rw [s.setRw_fifteen_normal normal]
    exact ⟨rfl, rfl⟩

/-! ## The step of one instruction (R40, R501, R721) -/

section
variable {s : State}

theorem isResetWord_of_notResetWord (h : s.NotResetWord) : isResetWord s.cfg (s.readWord .prog s.pc) = false := by
  unfold isResetWord
  split
  · rfl
  · next mask value hc => simpa using h mask value hc

theorem runInstr_of_decode {i : Instr} {rest : List Byte} (hw : s.NotResetWord)
    (hd : decode (bytesOf s.fetchWords) = .ok i rest) :
    runInstr s = mapNext (fun t => t.rewind s.pc) (exec i (s.advance i.words)) := by
  simp [runInstr, isResetWord_of_notResetWord hw, hd]

theorem step_of_running (ha : s.acceptable = none) (hh : s.halt = false) :
    step s = mapNext (fun t => t.tick s.stepBus) (runInstr s) := by
  simp [step, stepOnce, ha, hh]

end

/-- Settles O55: no interrupt, halt or RESET word diverts the step, so it is `exec i`, rewound and ticked if it answers a
next state, and its refusal otherwise. -/
theorem stepRunsTheDecodedInstruction : Obligations.StepRunsTheDecodedInstruction := by
  intro s i rest ha hh hw hd
  have run : step s = mapNext (fun t => t.tick s.stepBus)
      (mapNext (fun t => t.rewind s.pc) (exec i (s.advance i.words))) := by
    rw [step_of_running ha hh, runInstr_of_decode hw hd]
  refine ⟨fun t ht => ?_, fun r hr => ?_⟩
  · have ht : exec i (s.advance i.words) = .next t := ht
    rw [run, ht]
    rfl
  · have hr : exec i (s.advance i.words) = .refused r := hr
    rw [run, hr]
    rfl

/-! ## Reset (R50, R700) -/

theorem maskPsap_zero (m : PsapMask) : maskPsap m 0 = 0 := by cases m <;> rfl

/-- Settles O57: the reset memories are empty, the block flag is clear, and PSAP is 0, which every mask keeps. -/
theorem resetMeetsTheInvariant : Obligations.ResetMeetsTheInvariant :=
  ⟨rfl, rfl, rfl, maskPsap_zero _⟩

end Sys2Proof.Machine
end

section
/-! PROOFS of the statements about `20_memory.md`: the bytes of words and longs (R80 to R84, R89, R90). -/
namespace Sys2Proof.Machine

/-! ## Big-endian words and longs (R80 to R84, R89, R90) -/

theorem wordAddr_eq_ite (c : Config) (a : Word) :
    wordAddr c a = if c.oddWord = .forceEven then a &&& 0xFFFE else a := by
  unfold wordAddr
  cases c.oddWord <;> rfl

section
variable (s : State) (sp : Space) (a : Word)

theorem State.readByte_writeWord_hi (v : Word) :
    (s.writeWord sp a v).readByte sp (wordAddr s.cfg a) = v.extractLsb' 8 8 := by
  rw [State.writeWord, State.readByte_writeByte_of_ne _ (add_one_ne _).symm, State.readByte_writeByte_same]
  rfl

theorem State.readByte_writeWord_lo (v : Word) :
    (s.writeWord sp a v).readByte sp (wordAddr s.cfg a + 1) = v.extractLsb' 0 8 :=
  State.readByte_writeByte_same _ _ _ _

/-- The bytes of a long are those of its two words: the low word is stored last, and elsewhere. -/
theorem State.readByte_writeLong (l : Long) :
    (s.writeLong sp a l).readByte sp (wordAddr s.cfg a) = l.extractLsb' 24 8 ∧
      (s.writeLong sp a l).readByte sp (wordAddr s.cfg a + 1) = l.extractLsb' 16 8 ∧
      (s.writeLong sp a l).readByte sp (wordAddr s.cfg a + 2) = l.extractLsb' 8 8 ∧
      (s.writeLong sp a l).readByte sp (wordAddr s.cfg a + 3) = l.extractLsb' 0 8 := by
  have high : ∀ x ∈ accessBytes s.cfg .w a,
      (s.writeLong sp a l).readByte sp x = (s.writeWord sp a (l.extractLsb' 16 16)).readByte sp x := fun x hx =>
    State.readByte_memWrite_of_not_covered (z := .w) _ _ fun hc => word_add_two_apart s.cfg a x hx (by simpa using hc.2)
  have low := State.readByte_writeWord_hi (s.writeWord sp a (l.extractLsb' 16 16)) sp (a + 2) (l.extractLsb' 0 16)
  have last := State.readByte_writeWord_lo (s.writeWord sp a (l.extractLsb' 16 16)) sp (a + 2) (l.extractLsb' 0 16)
  have e3 : wordAddr s.cfg a + 2 + 1 = wordAddr s.cfg a + 3 := by bv_omega
  rw [State.writeWord_cfg, wordAddr_add_two, slice_slice _ _ _ _ _ (by decide)] at low last
  rw [e3] at last
  refine ⟨?_, ?_, low, last⟩
  · rw [high _ (by simp [accessBytes]), State.readByte_writeWord_hi, slice_slice _ _ _ _ _ (by decide)]
  · rw [high _ (by simp [accessBytes]), State.readByte_writeWord_lo, slice_slice _ _ _ _ _ (by decide)]

end

/-- Settles O9: a word is stored as its two bytes, a long as its two words of which the low one lies two bytes on, and a
write keeps every byte outside its own (`readByte_memWrite_of_not_covered`). -/
theorem memoryAccessesAreBigEndian : Obligations.MemoryAccessesAreBigEndian := by
  intro s sp sp' a b v l e
  have he : e = wordAddr s.cfg a := (wordAddr_eq_ite s.cfg a).symm
  rw [he]
  obtain ⟨long0, long1, long2, long3⟩ := s.readByte_writeLong sp a l
  refine ⟨rfl, rfl, s.readByte_writeWord_hi sp a v, s.readByte_writeWord_lo sp a v, fun h0 h1 => ?_,
    long0, long1, long2, long3, fun h => ?_, fun hs hd => ?_⟩
  · exact State.readByte_memWrite_of_not_covered (z := .w) s v fun hc => by simp_all [Covered, accessBytes]
  · exact State.readByte_memWrite_of_not_covered (z := .l) s l fun hc => h (accessBytes_long s.cfg a ▸ hc.2)
  · exact State.readByte_memWrite_of_not_covered (z := .l) s l fun hc => by simp_all [Covered]

end Sys2Proof.Machine
end

section
/-! PROOFS of the statements about `20_memory.md`: everything an instruction can do to the memories, the parameters and the
bus (R86 to R88, R91, R100), said once for every constructor; the statements about steps follow from it. -/
namespace Sys2Proof.Machine

/-! ## Updates -/

/-- From `s` to `t` the accesses `acc` were made, and what `State.Inv` asks was kept. -/
structure State.Does (s t : State) (acc : List BusAccess) : Prop where
  keeps : s.Keeps t
  made : s.Made t acc

variable {s t u : State} {acc acc' : List BusAccess}

theorem State.Does.refl (s : State) : s.Does s [] := ⟨.refl s, .refl s⟩

theorem State.Does.trans (h : s.Does t acc) (k : t.Does u acc') : s.Does u (acc ++ acc') :=
  ⟨h.keeps.trans k.keeps, h.made.trans k.made⟩

/-- A change of registers and flags after the accesses. -/
theorem State.Does.quietly (h : s.Does t acc) (k : t.Does u []) : s.Does u acc :=
  ⟨h.keeps.trans k.keeps, h.made.quietly k.made⟩

/-- Reads of memory before the accesses. -/
theorem State.Does.afterReads (h : s.Does t acc) (hp : acc'.filter BusAccess.isPort = []) : s.Does t (acc' ++ acc) :=
  ⟨h.keeps, h.made.afterReads hp⟩

/-- Reads of memory and a change of registers and flags. -/
theorem State.Does.onlyReads (h : s.Does t []) (hp : acc.filter BusAccess.isPort = []) : s.Does t acc :=
  ⟨h.keeps, h.made.onlyReads hp⟩

/-- An update that leaves the memories, the ports and what the invariant names alone. -/
theorem State.Does.of_eq (hc : t.cfg = s.cfg) (hs : t.stop = s.stop) (hp : t.prog = s.prog) (hd : t.data = s.data)
    (ha : t.psap = s.psap) (hb : t.bus = s.bus) (hi : t.io = s.io) : s.Does t [] :=
  ⟨.of_eq hc hs hp hd ha, .of_eq hc hb hp hd hi⟩

theorem State.does_ite {c : Prop} [Decidable c] (ht : s.Does t acc) (hu : s.Does u acc) :
    s.Does (if c then t else u) acc := by
  split
  · exact ht
  · exact hu

/-- A choice with the accesses of its branches. -/
theorem State.does_ite_bus {c : Prop} [Decidable c] (ht : s.Does t acc) (hu : s.Does u acc') :
    s.Does (if c then t else u) (if c then acc else acc') := by
  split
  · exact ht
  · exact hu

section
variable (s)

@[simp] theorem State.ports_reads (z : Size) (a : Word) : (s.reads z a).filter BusAccess.isPort = [] :=
  memAccess_ports _ _ _ _ _ _

@[simp] theorem State.ports_stackReads (z : Size) (a : Word) : (s.stackReads z a).filter BusAccess.isPort = [] :=
  memAccess_ports _ _ _ _ _ _

@[simp] theorem State.ports_fetchBus (n : Nat) : (s.fetchBus n).filter BusAccess.isPort = [] := by
  simp [State.fetchBus, BusAccess.isPort]

theorem State.does_setReg (z : Size) (n : Reg) (v : z.Val) : s.Does (s.setReg z n v) [] :=
  ⟨s.keeps_setReg z n v, s.made_setReg z n v⟩

theorem State.does_setRw (n : Reg) (v : Word) : s.Does (s.setRw n v) [] := s.does_setReg .w n v

theorem State.does_setRb (n : Reg) (v : Byte) : s.Does (s.setRb n v) [] := s.does_setReg .b n v

theorem State.does_setRr (n : Reg) (v : Long) : s.Does (s.setRr n v) [] := s.does_setReg .l n v

theorem State.does_setRq (n : Reg) (v : Quad) : s.Does (s.setRq n v) [] := ⟨s.keeps_setRq n v, s.made_setRq n v⟩

theorem State.does_bump (r : Reg) (k : Word) : s.Does (s.bump r k) [] := s.does_setRw r _

theorem State.does_setFlags (f : FlagWrite) : s.Does (s.setFlags f) [] := ⟨s.keeps_setFlags f, s.made_setFlags f⟩

theorem State.does_setPc (a : Word) : s.Does (s.setPc a) [] := .of_eq rfl rfl rfl rfl rfl rfl rfl

theorem State.does_writeFcw (v : Word) : s.Does (s.writeFcw v) [] := .of_eq rfl rfl rfl rfl rfl rfl rfl

theorem State.does_setReg_setFlags (z : Size) (n : Reg) (v : z.Val) (f : FlagWrite) :
    s.Does ((s.setReg z n v).setFlags f) [] := (s.does_setReg z n v).quietly (State.does_setFlags _ f)

theorem State.does_write (z : Size) (a : Word) (v : z.Val) : s.Does (s.memWrite .data z a v) (s.writes z a) :=
  ⟨s.keeps_memWrite .data z a v, s.made_memWrite .data .data z a v⟩

theorem State.does_store (z : Size) (v : z.Val) (dst : RegMem) :
    s.Does (RegMem.store s z v dst) (RegMem.writes s z dst) := ⟨s.keeps_store z v dst, s.made_store z v dst⟩

/-- An operand read, then written (R91). -/
theorem State.does_update (z : Size) (v : z.Val) (dst : RegMem) :
    s.Does (RegMem.store s z v dst) (RegMem.updates s z dst) := ⟨s.keeps_store z v dst, s.made_update z v dst⟩

theorem State.does_push (r : Reg) (z : Size) (v : z.Val) :
    s.Does (s.push r z v) (s.stackWrites z (s.rw r - z.bytes)) := ⟨s.keeps_push r z v, s.made_push r z v⟩

theorem State.does_pop (z : Size) (dst : RegMem) (r : Reg) (v : z.Val) :
    s.Does (RegMem.store (s.popped r z) z v dst) (popBus s z dst r) :=
  ⟨(s.keeps_popped r z).trans (State.keeps_store _ z v dst), s.made_pop z dst r v⟩

theorem State.does_loadRegs (d : Reg) (a : Word) (n : Nat) : s.Does (loadRegs s d a n) [] :=
  ⟨s.keeps_loadRegs d a n, s.made_loadRegs d a n⟩

theorem State.does_storeRegs (r : Reg) (a : Word) (n : BitVec 4) :
    s.Does (storeRegs s r a (n.toNat + 1)) (multipleBus s true a n) :=
  ⟨s.keeps_storeRegs r a _, s.made_storeRegs r a _⟩

theorem State.does_noteRead (z : Size) (ios : IoSpace) (p : Word) :
    s.Does (s.noteRead z ios p) (portAccess ios false z p) := ⟨.of_eq rfl rfl rfl rfl rfl, s.made_noteRead z ios p⟩

theorem State.does_ioWrite (z : Size) (ios : IoSpace) (p : Word) (v : z.Val) :
    s.Does (s.ioWrite z ios p v) (portAccess ios true z p) := ⟨.of_eq rfl rfl rfl rfl rfl, s.made_ioWrite z ios p v⟩

theorem State.does_writeCtl (v : Word) (k : Ctl) : s.Does (writeCtl s v k) [] :=
  ⟨s.keeps_writeCtl v k, by cases k <;> exact .of_eq rfl rfl rfl rfl rfl⟩

theorem State.does_takeTrap (k : Trap) : s.Does (s.takeTrap k) (s.trapBus k) := ⟨s.keeps_takeTrap k, s.made_takeTrap k⟩

theorem State.does_returnFromTrap : s.Does s.returnFromTrap [] :=
  (s.does_setRw 15 _).quietly (.of_eq rfl rfl rfl rfl rfl rfl rfl)

theorem State.does_resetSequence : s.Does s.resetSequence (resetBus s.cfg) :=
  ⟨s.keeps_resetSequence, .onlyReads (.of_eq rfl rfl rfl rfl rfl) (by simp [resetBus])⟩

theorem State.does_rewind (ia : Word) : s.Does (s.rewind ia) [] :=
  .of_eq (by simp) (by simp) (by simp) (by simp) (by simp) (by simp) (by simp)

/-- The PC is moved over the words that were fetched (R86). -/
theorem State.does_advance (n : Nat) : s.Does (s.advance n) (s.fetchBus n) :=
  (s.does_setPc _).onlyReads (s.ports_fetchBus n)

end

/-! ## Results and the checks (`60_exceptions.md` R613) -/

/-- Every next state a result can answer is reached by the accesses `acc`. -/
def Result.Does (s : State) (r : Result) (acc : List BusAccess) : Prop := ∀ t, r = .next t → s.Does t acc

theorem Result.does_next (h : s.Does t acc) : Result.Does s (.next t) acc := by
  intro u hu
  cases hu
  exact h

theorem Result.does_refused (why : Refusal) : Result.Does s (.refused why) acc := by
  intro u hu
  cases hu

/-- The accesses of an instruction with the checks: those of the entry where one fails, `acc` where both pass. -/
def State.guardedBus (s : State) (wf priv : Bool) (acc : List BusAccess) : List BusAccess :=
  if wf = false then s.trapBus .ext else if priv && !s.sysMode then s.trapBus .priv else acc

@[simp] theorem State.guardedBus_of_passed (s : State) (acc : List BusAccess) : s.guardedBus true false acc = acc := rfl

theorem Instr.bus_eq_guardedBus (s : State) (i : Instr) :
    Instr.bus s i = s.guardedBus i.wf (Instr.isPrivileged i) (Instr.effectBus s i) := rfl

theorem State.does_checked {legal wf priv : Bool} {k : Result} (hl : legal = wf)
    (h : Result.Does s k (s.guardedBus true priv acc)) :
    Result.Does s (s.checked legal k) (s.guardedBus wf priv acc) := by
  subst hl
  cases legal
  · exact Result.does_next (s.does_takeTrap .ext)
  · exact h

theorem State.does_privileged {k : Result} (h : Result.Does s k acc) :
    Result.Does s (s.privileged k) (s.guardedBus true true acc) := by
  cases hm : s.sysMode
  · rw [s.privileged_of_normal hm]
    simpa [State.guardedBus, hm] using Result.does_next (s.does_takeTrap .priv)
  · rw [s.privileged_of_system hm]
    simpa [State.guardedBus, hm] using h

/-- A state that is answered after the decode check alone. -/
theorem State.does_checked_next {legal wf : Bool} (hl : legal = wf) (h : s.Does t acc) :
    Result.Does s (s.checked legal (.next t)) (s.guardedBus wf false acc) :=
  s.does_checked hl (Result.does_next h)

/-! ## The shapes of the instructions -/

section
variable {s t : State} {acc : List BusAccess} {legal wf : Bool}
variable (z : Size) (ios : IoSpace)

/-- A register and flags from what was read. -/
theorem State.does_aluToReg (hl : legal = wf) (hp : acc.filter BusAccess.isPort = []) (d : Reg) (v : z.Val) (f : FlagWrite) :
    Result.Does s (s.checked legal (.next ((s.setReg z d v).setFlags f))) (s.guardedBus wf false acc) :=
  State.does_checked_next hl ((s.does_setReg_setFlags z d v f).onlyReads hp)

/-- A register from what was read. -/
theorem State.does_toReg (hl : legal = wf) (hp : acc.filter BusAccess.isPort = []) (d : Reg) (v : z.Val) :
    Result.Does s (s.checked legal (.next (s.setReg z d v))) (s.guardedBus wf false acc) :=
  State.does_checked_next hl ((s.does_setReg z d v).onlyReads hp)

/-- Flags from what was read. -/
theorem State.does_toFlags (hl : legal = wf) (hp : acc.filter BusAccess.isPort = []) (f : FlagWrite) :
    Result.Does s (s.checked legal (.next (s.setFlags f))) (s.guardedBus wf false acc) :=
  State.does_checked_next hl ((s.does_setFlags f).onlyReads hp)

/-- An operand that is read and written. -/
theorem State.does_operand (dst : RegMem) (v : z.Val) :
    Result.Does s (s.checked (RegMem.legal z dst) (.next (RegMem.store s z v dst)))
      (s.guardedBus (dst.wf z) false (RegMem.updates s z dst)) :=
  State.does_checked_next (RegMem.legal_eq_wf z dst) (s.does_update z v dst)

/-- An operand that is read and written, and flags. -/
theorem State.does_aluToOperand (dst : RegMem) (v : z.Val) (f : FlagWrite) :
    Result.Does s (s.checked (RegMem.legal z dst) (.next ((RegMem.store s z v dst).setFlags f)))
      (s.guardedBus (dst.wf z) false (RegMem.updates s z dst)) :=
  State.does_checked_next (RegMem.legal_eq_wf z dst) ((s.does_update z v dst).quietly (State.does_setFlags _ f))

/-- A store at an address of DATA. -/
theorem State.does_toMem (hl : legal = wf) (a : Word) (v : z.Val) :
    Result.Does s (s.checked legal (.next (s.memWrite .data z a v))) (s.guardedBus wf false (s.writes z a)) :=
  State.does_checked_next hl (s.does_write z a v)

/-- A shift, its count in range or not (R370). -/
theorem State.does_shift {c : Prop} [Decidable c] (d : Reg) (o : ShiftOut z.bits) (v : Bool) :
    Result.Does s (s.checked (sizeOk z d) (if c then shiftResult z d o v s else shiftDrawn z d s))
      (s.guardedBus (z.regWf d) false []) := by
  refine s.does_checked (sizeOk_eq_regWf z d) ?_
  split <;> exact Result.does_next (s.does_setReg_setFlags z d _ _)

theorem does_inputReg (d : Reg) (port : Word) :
    Result.Does s (inputReg z ios d port s) (s.guardedBus true true (portAccess ios false z port)) :=
  s.does_privileged (Result.does_next ((s.does_noteRead z ios port).quietly (State.does_setReg _ z d _)))

theorem does_outputReg (port : Word) (r : Reg) :
    Result.Does s (outputReg z ios port r s) (s.guardedBus true true (portAccess ios true z port)) :=
  s.does_privileged (Result.does_next (s.does_ioWrite z ios port _))

/-! ### Block iterations -/

variable (down rep : Bool) (d src r : Reg)

theorem State.Does.blockEnd (h : s.Does t acc) (f : FlagWrite) (again : Bool) :
    Result.Does s (blockEnd t r f again) acc := by
  rw [blockEnd_eq]
  exact Result.does_next (h.quietly ⟨t.keeps_blockEndState r f again, t.made_blockEndState r f again⟩)

theorem does_blockMove :
    Result.Does s (blockMove z down rep d src r s) (s.guardedBus (ptrReg d && ptrReg src) false (moveBus s z d src)) :=
  s.does_checked rfl (.blockEnd r ((((s.does_write z (s.rw d) _).afterReads (s.ports_reads _ _)).quietly
    (State.does_bump _ src _)).quietly (State.does_bump _ d _)) _ _)

theorem does_blockCompare (cc : Cc) :
    Result.Does s (blockCompare z down rep d src r cc s) (s.guardedBus (ptrReg src) false (s.reads z (s.rw src))) :=
  s.does_checked rfl (.blockEnd r ((s.does_bump src _).onlyReads (s.ports_reads _ _)) _ _)

theorem does_blockCompareStrings (cc : Cc) :
    Result.Does s (blockCompareStrings z down rep d src r cc s)
      (s.guardedBus (ptrReg d && ptrReg src) false (stringsBus s z d src)) :=
  s.does_checked rfl (.blockEnd r (((s.does_bump src _).quietly (State.does_bump _ d _)).onlyReads
    (by simp [stringsBus])) _ _)

theorem does_blockTranslate :
    Result.Does s (blockTranslate down rep d src r s) (s.guardedBus (ptrReg d && ptrReg src) false (translateBus s d src)) :=
  s.does_checked rfl (.blockEnd r (((s.does_write .b (s.rw d) _).afterReads (by simp [tableBus])).quietly
    (State.does_bump _ d _)) _ _)

theorem does_blockTranslateTest :
    Result.Does s (blockTranslateTest down rep d src r s) (s.guardedBus (ptrReg d && ptrReg src) false (tableBus s d src)) :=
  s.does_checked rfl (.blockEnd r (((s.does_setRb 1 _).quietly (State.does_bump _ d _)).onlyReads
    (by simp [tableBus])) _ _)

theorem does_blockIn :
    Result.Does s (blockIn z ios down rep d src r s)
      (s.guardedBus (ptrReg d && ptrReg src) true (blockInBus s z ios d src)) :=
  s.does_checked rfl (s.does_privileged (.blockEnd r (((s.does_noteRead z ios _).trans
    (State.does_write _ z (s.rw d) _)).quietly (State.does_bump _ d _)) _ _))

theorem does_blockOut :
    Result.Does s (blockOut z ios down rep d src r s)
      (s.guardedBus (ptrReg d && ptrReg src) true (blockOutBus s z ios d src)) :=
  s.does_checked rfl (s.does_privileged (.blockEnd r (((s.does_ioWrite z ios (s.rw d) _).afterReads
    (s.ports_reads _ _)).quietly (State.does_bump _ src _)) _ _))

end

/-! ## Every instruction -/

theorem evenOk_and_src {z : Size} (d : Reg) (src : Src z) : (evenOk d && Src.legal src) = (longReg d && src.wf) := by
  rw [evenOk_eq_longReg, Src.legal_eq_wf]

theorem quadOk_and_src {z : Size} (d : Reg) (src : Src z) : (quadOk d && Src.legal src) = (quadReg d && src.wf) := by
  rw [quadOk_eq_quadReg, Src.legal_eq_wf]

theorem sizeOk_and_ldSrc {z : Size} (d : Reg) (src : LdSrc z) :
    (sizeOk z d && LdSrc.legal src) = (z.regWf d && src.wf) := by
  rw [sizeOk_eq_regWf, LdSrc.legal_eq_wf]

theorem pointerOk_and_operand (z : Size) (r : Reg) (o : RegMem) :
    (pointerOk r && RegMem.legal z o) = (ptrReg r && o.wf z) := by
  rw [pointerOk_eq_ptrReg, RegMem.legal_eq_wf]

/-- A division: the source is read, and a divide error takes the entry (R289, R290). -/
theorem State.does_divide {z : Size} {s t : State} {w : Nat} {n : Int} {src : Src z} (h : s.Does t []) :
    s.Does (if divError w n (Src.value s src).toInt then s.takeTrap .ext else t) (divBus s w n src) :=
  (State.does_ite_bus (s.does_takeTrap .ext) h).afterReads (Src.ports_reads s src)

/-- Every instruction writes and uses ports as `Instr.bus` lists, and keeps what the invariant asks. -/
theorem exec_does (s : State) (i : Instr) : Result.Does s (exec i s) (Instr.bus s i) := by
  rw [Instr.bus_eq_guardedBus]
  cases i with
  | ld d src => exact s.does_toReg .w (sizeOk_and_ldSrc d src) (LdSrc.ports_reads s src) d _
  | ldb d src => exact s.does_toReg .b (sizeOk_and_ldSrc d src) (LdSrc.ports_reads s src) d _
  | ldl d src => exact s.does_toReg .l (sizeOk_and_ldSrc d src) (LdSrc.ports_reads s src) d _
  | ldbShort d k => exact Result.does_next (s.does_setRb d k)
  | ldSt dst r => exact s.does_toMem .w (StDst.legal_eq_wf dst) _ _
  | ldbSt dst r => exact s.does_toMem .b (StDst.legal_eq_wf dst) _ _
  | ldlSt dst r =>
    exact s.does_toMem .l (by rw [sizeOk_eq_regWf, StDst.legal_eq_wf, Bool.and_comm]; rfl) _ _
  | ldImm dst k => exact s.does_toMem .w (MemOp.legal_eq_wf dst) _ _
  | ldbImm dst k => exact s.does_toMem .b (MemOp.legal_eq_wf dst) _ _
  | ldr d disp => exact s.does_toReg .w (sizeOk_eq_regWf .w d) (s.ports_reads _ _) d _
  | ldrb d disp => exact s.does_toReg .b (sizeOk_eq_regWf .b d) (s.ports_reads _ _) d _
  | ldrl d disp => exact s.does_toReg .l (sizeOk_eq_regWf .l d) (s.ports_reads _ _) d _
  | ldrSt disp r => exact s.does_toMem .w (sizeOk_eq_regWf .w r) _ _
  | ldrbSt disp r => exact s.does_toMem .b (sizeOk_eq_regWf .b r) _ _
  | ldrlSt disp r => exact s.does_toMem .l (sizeOk_eq_regWf .l r) _ _
  | lda d src => exact s.does_toReg .w (LaSrc.legal_eq_wf src) rfl d _
  | ldar d disp => exact Result.does_next (s.does_setRw d _)
  | ldk d n => exact Result.does_next (s.does_setRw d _)
  | ldm d src n =>
    exact State.does_checked_next (MemOp.legal_eq_wf src)
      ((s.does_loadRegs d _ _).onlyReads (multipleBus_ports s false _ n))
  | ldmSt dst r n => exact State.does_checked_next (MemOp.legal_eq_wf dst) (s.does_storeRegs r _ n)
  | clr dst => exact State.does_checked_next (RegMem.legal_eq_wf .w dst) (s.does_store .w 0 dst)
  | clrb dst => exact State.does_checked_next (RegMem.legal_eq_wf .b dst) (s.does_store .b 0 dst)
  | ex d src =>
    exact State.does_checked_next (RegMem.legal_eq_wf .w src)
      ((s.does_update .w _ src).quietly (State.does_setReg _ .w d _))
  | exb d src =>
    exact State.does_checked_next (RegMem.legal_eq_wf .b src)
      ((s.does_update .b _ src).quietly (State.does_setReg _ .b d _))
  | push d src =>
    exact State.does_checked_next (by rw [pointerOk_eq_ptrReg, Src.legal_eq_wf]; rfl)
      ((s.does_push d .w _).afterReads (Src.ports_reads s src))
  | pushl d src =>
    exact State.does_checked_next (pointerOk_and_operand .l d src)
      ((s.does_push d .l _).afterReads (RegMem.ports_reads s .l src))
  | pop dst r => exact State.does_checked_next (pointerOk_and_operand .w r dst) (s.does_pop .w dst r _)
  | popl dst r => exact State.does_checked_next (pointerOk_and_operand .l r dst) (s.does_pop .l dst r _)
  | add d src | sub d src | and d src | or d src | xor d src =>
    exact s.does_aluToReg .w (Src.legal_eq_wf src) (Src.ports_reads s src) d _ _
  | addb d src | subb d src | andb d src | orb d src | xorb d src =>
    exact s.does_aluToReg .b (Src.legal_eq_wf src) (Src.ports_reads s src) d _ _
  | addl d src | subl d src | mult d src =>
    exact s.does_aluToReg .l (evenOk_and_src d src) (Src.ports_reads s src) d _ _
  | adc d r | sbc d r => exact Result.does_next (s.does_setReg_setFlags .w d _ _)
  | adcb d r | sbcb d r | dab d => exact Result.does_next (s.does_setReg_setFlags .b d _ _)
  | cp d src | cpb d src => exact s.does_toFlags (Src.legal_eq_wf src) (Src.ports_reads s src) _
  | cpl d src => exact s.does_toFlags (evenOk_and_src d src) (Src.ports_reads s src) _
  | cpImm dst k | cpbImm dst k =>
    exact s.does_toFlags (MemOp.legal_eq_wf dst) (s.ports_reads _ _) _
  | inc dst n | dec dst n | neg dst | com dst | tset dst => exact s.does_aluToOperand .w dst _ _
  | incb dst n | decb dst n | negb dst | comb dst | tsetb dst => exact s.does_aluToOperand .b dst _ _
  | multl d src =>
    exact State.does_checked_next (quadOk_and_src d src)
      (((s.does_setRq d _).quietly (State.does_setFlags _ _)).onlyReads (Src.ports_reads s src))
  | div d src =>
    exact State.does_checked_next (evenOk_and_src d src)
      (State.does_divide (((s.does_setRw _ _).quietly (State.does_setRw _ _ _)).quietly (State.does_setFlags _ _)))
  | divl d src =>
    exact State.does_checked_next (quadOk_and_src d src)
      (State.does_divide (((s.does_setRr _ _).quietly (State.does_setRr _ _ _)).quietly (State.does_setFlags _ _)))
  | extsb d => exact Result.does_next (s.does_setRw d _)
  | exts d => exact s.does_toReg .w (evenOk_eq_longReg d) rfl d _
  | extsl d => exact s.does_toReg .l (quadOk_eq_quadReg d) rfl d _
  | test dst | bit dst b => exact s.does_toFlags (RegMem.legal_eq_wf .w dst) (RegMem.ports_reads s .w dst) _
  | testb dst | bitb dst b => exact s.does_toFlags (RegMem.legal_eq_wf .b dst) (RegMem.ports_reads s .b dst) _
  | testl dst => exact s.does_toFlags (RegMem.legal_eq_wf .l dst) (RegMem.ports_reads s .l dst) _
  | bitDyn d r => exact s.does_toFlags (RegMem.legal_eq_wf .w (.reg d)) (RegMem.ports_reads s .w (.reg d)) _
  | bitbDyn d r => exact s.does_toFlags (RegMem.legal_eq_wf .b (.reg d)) (RegMem.ports_reads s .b (.reg d)) _
  | set dst b | res dst b => exact s.does_operand .w dst _
  | setb dst b | resb dst b => exact s.does_operand .b dst _
  | setDyn d r | resDyn d r => exact s.does_operand .w (.reg d) _
  | setbDyn d r | resbDyn d r => exact s.does_operand .b (.reg d) _
  | tcc cc d => exact Result.does_next (State.does_ite (s.does_setRw d _) (.refl s))
  | tccb cc d => exact Result.does_next (State.does_ite (s.does_setRb d _) (.refl s))
  | rl d twice | rr d twice | rlc d twice | rrc d twice => exact Result.does_next (s.does_setReg_setFlags .w d _ _)
  | rlb d twice | rrb d twice | rlcb d twice | rrcb d twice => exact Result.does_next (s.does_setReg_setFlags .b d _ _)
  | slaSra d count | sda d r => exact s.does_shift .w d _ _
  | slabSrab d count | sdab d r => exact s.does_shift .b d _ _
  | slalSral d count | sdal d r => exact s.does_shift .l d _ _
  | sllSrl d count | sdl d r => exact s.does_shift .w d _ _
  | sllbSrlb d count | sdlb d r => exact s.does_shift .b d _ _
  | slllSrll d count | sdll d r => exact s.does_shift .l d _ _
  | rldb l r | rrdb l r =>
    exact Result.does_next (((s.does_setRb r _).quietly (State.does_setRb _ l _)).quietly (State.does_setFlags _ _))
  | jp cc dst =>
    exact State.does_checked_next (MemOp.legal_eq_wf dst) (State.does_ite (s.does_setPc _) (.refl s))
  | jr cc disp => exact Result.does_next (State.does_ite (s.does_setPc _) (.refl s))
  | call dst =>
    exact State.does_checked_next (MemOp.legal_eq_wf dst) ((s.does_push 15 .w _).quietly (State.does_setPc _ _))
  | calr disp => exact Result.does_next ((s.does_push 15 .w _).quietly (State.does_setPc _ _))
  | ret cc =>
    exact Result.does_next (State.does_ite_bus
      (((s.does_setRw 15 _).quietly (State.does_setPc _ _)).onlyReads (s.ports_stackReads _ _)) (.refl s))
  | djnz r disp =>
    exact Result.does_next (State.does_ite (s.does_setRw r _) ((s.does_setRw r _).quietly (State.does_setPc _ _)))
  | dbjnz r disp =>
    exact Result.does_next (State.does_ite (s.does_setRb r _) ((s.does_setRb r _).quietly (State.does_setPc _ _)))
  | nop => exact Result.does_next (.refl s)
  | halt => exact s.does_privileged (Result.does_next (.of_eq rfl rfl rfl rfl rfl rfl rfl))
  | di v n | ei v n => exact s.does_privileged (Result.does_next (s.does_writeFcw _))
  | ldps src =>
    exact s.does_checked (MemOp.legal_eq_wf src) (s.does_privileged (Result.does_next
      (((s.does_writeFcw _).quietly (State.does_setPc _ _)).onlyReads (by simp [Instr.effectBus]))))
  | sc code => exact Result.does_next (s.does_takeTrap (.sysCall code))
  | iret =>
    exact s.does_privileged (Result.does_next
      (s.does_returnFromTrap.onlyReads (by simp [Instr.effectBus])))
  | setflg mask | resflg mask | comflg mask => exact Result.does_next (s.does_setFlags _)
  | ldctlRead d k => exact s.does_privileged (Result.does_next (s.does_setRw d _))
  | ldctlWrite k r => exact s.does_privileged (Result.does_next (s.does_writeCtl _ k))
  | ldctlbRead d => exact Result.does_next (s.does_setRb d _)
  | ldctlbWrite r => exact Result.does_next (s.does_writeFcw _)
  | mset | mres | mbit | mreq d => exact s.does_privileged (Result.does_refused _)
  | epu page op =>
    show Result.Does s (if s.epa then _ else _) (if s.epa then [] else s.trapBus .ext)
    split
    · exact Result.does_refused _
    · exact Result.does_next (s.does_takeTrap .ext)
  | inInd d r => exact s.does_checked rfl (does_inputReg .w .std d _)
  | inbInd d r => exact s.does_checked rfl (does_inputReg .b .std d _)
  | inDir d port => exact does_inputReg .w .std d port
  | inbDir d port => exact does_inputReg .b .std d port
  | sin d port => exact does_inputReg .w .special d port
  | sinb d port => exact does_inputReg .b .special d port
  | outInd d r => exact s.does_checked rfl (does_outputReg .w .std _ r)
  | outbInd d r => exact s.does_checked rfl (does_outputReg .b .std _ r)
  | outDir port r => exact does_outputReg .w .std port r
  | outbDir port r => exact does_outputReg .b .std port r
  | sout port r => exact does_outputReg .w .special port r
  | soutb port r => exact does_outputReg .b .special port r
  | ldi d src r | ldir d src r | ldd d src r | lddr d src r => exact does_blockMove .w _ _ d src r
  | ldib d src r | ldirb d src r | lddb d src r | lddrb d src r => exact does_blockMove .b _ _ d src r
  | cpi d src r cc | cpir d src r cc | cpd d src r cc | cpdr d src r cc => exact does_blockCompare .w _ _ d src r cc
  | cpib d src r cc | cpirb d src r cc | cpdb d src r cc | cpdrb d src r cc => exact does_blockCompare .b _ _ d src r cc
  | cpsi d src r cc | cpsir d src r cc | cpsd d src r cc | cpsdr d src r cc =>
    exact does_blockCompareStrings .w _ _ d src r cc
  | cpsib d src r cc | cpsirb d src r cc | cpsdb d src r cc | cpsdrb d src r cc =>
    exact does_blockCompareStrings .b _ _ d src r cc
  | trib d table r | trirb d table r | trdb d table r | trdrb d table r => exact does_blockTranslate _ _ d table r
  | trtib str table r | trtirb str table r | trtdb str table r | trtdrb str table r =>
    exact does_blockTranslateTest _ _ str table r
  | ini d src r | inir d src r | ind d src r | indr d src r => exact does_blockIn .w .std _ _ d src r
  | inib d src r | inirb d src r | indb d src r | indrb d src r => exact does_blockIn .b .std _ _ d src r
  | sini d src r | sinir d src r | sind d src r | sindr d src r => exact does_blockIn .w .special _ _ d src r
  | sinib d src r | sinirb d src r | sindb d src r | sindrb d src r => exact does_blockIn .b .special _ _ d src r
  | outi d src r | otir d src r | outd d src r | otdr d src r => exact does_blockOut .w .std _ _ d src r
  | outib d src r | otirb d src r | outdb d src r | otdrb d src r => exact does_blockOut .b .std _ _ d src r
  | souti d src r | sotir d src r | soutd d src r | sotdr d src r => exact does_blockOut .w .special _ _ d src r
  | soutib d src r | sotirb d src r | soutdb d src r | sotdrb d src r => exact does_blockOut .b .special _ _ d src r

end Sys2Proof.Machine
end

section
/-! PROOFS of the statements about `20_memory.md`: what every step keeps and records (R80, R86 to R92, R100). -/
namespace Sys2Proof.Machine

/-! ## Every step -/

section
variable {s t : State}

theorem stepBus_of_acceptable {k : Trap} (ha : s.acceptable = some k) : s.stepBus = s.trapBus k := by
  simp [State.stepBus, ha]

theorem stepBus_of_halted (ha : s.acceptable = none) (hh : s.halt = true) : s.stepBus = [] := by
  simp [State.stepBus, ha, hh]

theorem stepBus_of_running (ha : s.acceptable = none) (hh : s.halt = false) : s.stepBus = s.instrBus := by
  simp [State.stepBus, ha, hh]

theorem instrBus_of_resetWord (hw : isResetWord s.cfg (s.readWord .prog s.pc) = true) :
    s.instrBus = s.fetchBus 1 ++ (if s.sysMode then resetBus s.cfg else s.trapBus .priv) := by
  simp [State.instrBus, hw]

theorem instrBus_of_decode {i : Instr} {rest : List Byte} (hw : isResetWord s.cfg (s.readWord .prog s.pc) = false)
    (hd : decode (bytesOf s.fetchWords) = .ok i rest) :
    s.instrBus = s.fetchBus i.words ++ Instr.bus (s.advance i.words) i := by
  simp [State.instrBus, hw, hd]

theorem instrBus_of_rejected {why : Reject} (hw : isResetWord s.cfg (s.readWord .prog s.pc) = false)
    (hd : decode (bytesOf s.fetchWords) = .rejected why) : s.instrBus = s.fetchBus 1 ++ s.trapBus .ext := by
  simp [State.instrBus, hw, hd]

theorem State.guardedBus_privileged (s : State) (acc : List BusAccess) :
    s.guardedBus true true acc = if s.sysMode then acc else s.trapBus .priv := by
  cases h : s.sysMode <;> simp [State.guardedBus, h]

theorem execReset_does (s : State) :
    Result.Does s (execReset s) (if s.sysMode then resetBus s.cfg else s.trapBus .priv) := by
  rw [← State.guardedBus_privileged]
  exact s.does_privileged (Result.does_next s.does_resetSequence)

/-- Running an instruction makes the accesses `State.instrBus` lists. -/
theorem runInstr_does (h : runInstr s = .next t) : s.Does t s.instrBus := by
  obtain ⟨hw, hx⟩ | ⟨hw, ⟨why, hd⟩, rfl⟩ | ⟨hw, i, rest, u, hd, hu, rfl⟩ := runInstr_cases h
  · rw [instrBus_of_resetWord hw]
    exact (s.does_advance 1).trans (execReset_does (s.advance 1) t hx)
  · rw [instrBus_of_rejected hw hd]
    exact (s.does_advance 1).trans (State.does_takeTrap (s.advance 1) .ext)
  · rw [instrBus_of_decode hw hd]
    exact ((s.does_advance i.words).trans (exec_does (s.advance i.words) i u hu)).quietly (u.does_rewind s.pc)

theorem takeTrap_reexec (s : State) (k : Trap) : (s.takeTrap k).reexec = s.reexec := (s.entered_takeTrap k).reexec

@[simp] theorem State.reexec_rewind (s : State) (ia : Word) : (s.rewind ia).reexec = false := by
  unfold State.rewind
  split
  · rfl
  · next h => simpa using h

/-- No block iteration is left half done (R501): after a decoded instruction the rewind clears `reexec`, and reset and the
entries leave it clear. -/
theorem runInstr_reexec (h : runInstr s = .next t) (hs : s.reexec = false) : t.reexec = false := by
  obtain ⟨-, hx⟩ | ⟨-, -, rfl⟩ | ⟨-, i, rest, u, -, -, rfl⟩ := runInstr_cases h
  · obtain ⟨-, hk⟩ | ⟨-, rfl⟩ := State.privileged_next (s.advance 1) hx
    · cases hk
      rfl
    · exact (takeTrap_reexec _ _).trans hs
  · exact (takeTrap_reexec _ _).trans hs
  · exact u.reexec_rewind s.pc

/-- A step is a change that makes the accesses `State.stepBus` lists and leaves no block iteration half done, then the
tick. -/
theorem step_does (h : step s = .next t) :
    ∃ u, s.Does u s.stepBus ∧ (s.reexec = false → u.reexec = false) ∧ t = u.tick s.stepBus := by
  obtain ⟨k, ha, rfl⟩ | ⟨ha, hh, rfl⟩ | ⟨ha, hh, u, hu, rfl⟩ := step_cases h
  · exact ⟨s.takeTrap k, stepBus_of_acceptable ha ▸ s.does_takeTrap k, (takeTrap_reexec s k).trans, rfl⟩
  · exact ⟨s, stepBus_of_halted ha hh ▸ .refl s, id, rfl⟩
  · exact ⟨u, stepBus_of_running ha hh ▸ runInstr_does hu, runInstr_reexec hu, rfl⟩

end

/-- Settles O56: whatever a step does keeps what the invariant asks of memories, parameters and PSAP, and clears
`reexec`; the tick touches none of these fields. -/
theorem everyStepKeepsTheInvariant : Obligations.EveryStepKeepsTheInvariant := by
  intro s t inv h
  obtain ⟨prog, data, reexec, psap⟩ := inv
  obtain ⟨u, ⟨keeps, -⟩, clears, rfl⟩ := step_does h
  obtain ⟨prog', data'⟩ := keeps.wf prog data
  exact ⟨⟨prog', data', clears reexec, keeps.psap psap⟩, keeps.cfg⟩

/-! ## The accesses of the rules -/

section
variable (s : State)

/-- Instructions whose effects make the same accesses, which the model's definitions give by computation (`hl`); `h` says
that these are the rule's. -/
theorem State.makes_of_map {acc acc' : List BusAccess} {l : List Instr} (h : acc' = acc)
    (hl : l.map (Instr.effectBus s) = List.replicate l.length acc' := by rfl) : s.Makes acc l := by
  intro i hi hw hp
  rw [Instr.bus_eq_effectBus hw hp, ← h]
  exact (List.map_eq_replicate_iff.1 hl) i hi

theorem RegMem.updates_eq_units (z : Size) (m : RegMem) :
    RegMem.updates s z m = RegMem.units s false z m ++ RegMem.units s true z m := by
  rw [RegMem.updates, RegMem.reads_eq_units, RegMem.writes_eq_units]

theorem State.operandAccesses : s.OperandAccesses :=
  ⟨fun _ src => s.makes_of_map (Src.reads_eq_units s src), fun _ src => s.makes_of_map (Src.reads_eq_units s src),
    fun _ src => s.makes_of_map (Src.reads_eq_units s src),
    fun _ _ => s.makes_of_map rfl, fun _ _ => s.makes_of_map rfl, fun _ _ => s.makes_of_map rfl,
    fun _ _ => s.makes_of_map rfl, fun _ _ => s.makes_of_map rfl, fun _ _ => s.makes_of_map rfl,
    fun _ _ => s.makes_of_map rfl, fun _ _ => s.makes_of_map rfl, fun _ _ => s.makes_of_map rfl,
    fun _ _ => s.makes_of_map rfl, fun _ _ => s.makes_of_map rfl, fun _ _ => s.makes_of_map rfl,
    fun _ _ => s.makes_of_map rfl, fun _ _ => s.makes_of_map rfl, fun _ _ => s.makes_of_map rfl,
    fun _ _ => s.makes_of_map rfl,
    fun _ _ _ => s.makes_of_map rfl, fun _ _ _ => s.makes_of_map rfl,
    fun m => s.makes_of_map (RegMem.writes_eq_units s .w m), fun m _ => s.makes_of_map (RegMem.reads_eq_units s .w m),
    fun _ m _ => s.makes_of_map (RegMem.updates_eq_units s .w m),
    fun m => s.makes_of_map (RegMem.writes_eq_units s .b m), fun m _ => s.makes_of_map (RegMem.reads_eq_units s .b m),
    fun _ m _ => s.makes_of_map (RegMem.updates_eq_units s .b m), fun m => s.makes_of_map (RegMem.reads_eq_units s .l m)⟩

theorem State.stackAccesses : s.StackAccesses :=
  ⟨fun _ src => s.makes_of_map (congrArg (· ++ _) (Src.reads_eq_units s src)),
    fun _ m => s.makes_of_map (congrArg (· ++ _) (RegMem.reads_eq_units s .l m)),
    fun r m => s.makes_of_map (congrArg (_ :: ·) (RegMem.writes_eq_units (s.popped r .w) .w m)),
    fun r m => s.makes_of_map (congrArg (_ :: _ :: ·) (RegMem.writes_eq_units (s.popped r .l) .l m)),
    fun _ _ => s.makes_of_map rfl, fun _ => s.makes_of_map rfl, s.makes_of_map rfl, fun _ => s.makes_of_map rfl,
    fun _ => s.makes_of_map rfl⟩

theorem State.portAccesses : s.PortAccesses := by
  refine ⟨?_, ?_, ?_, ?_, ?_, ?_, ?_, ?_, ?_, ?_, ?_, ?_⟩ <;> exact fun _ _ => s.makes_of_map rfl

theorem State.blockAccesses : s.BlockAccesses := by
  have e : ∀ b : Byte, b.zeroExtend 16 = BitVec.ofNat 16 b.toNat := fun b => (BitVec.ofNat_toNat 16 b).symm
  exact ⟨fun _ _ _ => s.makes_of_map rfl, fun _ _ _ _ => s.makes_of_map rfl, fun _ _ _ _ => s.makes_of_map rfl,
    fun _ _ _ => s.makes_of_map rfl, fun _ _ _ _ => s.makes_of_map rfl, fun _ _ _ _ => s.makes_of_map rfl,
    fun str table _ => e _ ▸ s.makes_of_map (acc' := translateBus s str table) rfl,
    fun str table _ => e _ ▸ s.makes_of_map (acc' := tableBus s str table) rfl,
    fun _ _ _ => s.makes_of_map rfl, fun _ _ _ => s.makes_of_map rfl, fun _ _ _ => s.makes_of_map rfl,
    fun _ _ _ => s.makes_of_map rfl, fun _ _ _ => s.makes_of_map rfl, fun _ _ _ => s.makes_of_map rfl,
    fun _ _ _ => s.makes_of_map rfl, fun _ _ _ => s.makes_of_map rfl⟩

theorem State.noAccesses : s.NoAccesses :=
  ⟨fun _ _ => s.makes_of_map rfl, fun _ _ => s.makes_of_map rfl, fun _ _ => s.makes_of_map rfl,
    fun _ _ _ _ _ => s.makes_of_map rfl, fun _ _ _ => s.makes_of_map rfl, fun _ _ _ _ => s.makes_of_map rfl,
    fun _ _ _ => s.makes_of_map rfl, fun _ _ => s.makes_of_map rfl⟩

/-! ### Divisions and the checks (R289, R290, R613) -/

theorem divError_of_quotient {w : Nat} {n d q m : Int} (h : IsQuotient n d q m) :
    divError w n d = !decide (-2 ^ (w - 1) ≤ q ∧ q < 2 ^ (w - 1)) := by
  have hd : d ≠ 0 := by
    rintro rfl
    simpa using h.small
  rw [divError, (quotient_unique h).1, beq_false_of_ne hd, Bool.false_or, ← Bool.decide_or, ← decide_not]
  exact decide_eq_decide.2 (by omega)

theorem divBus_of_quotient {z : Size} {w : Nat} {n q m : Int} {src : Src z}
    (h : IsQuotient n (Src.value s src).toInt q m) :
    divBus s w n src =
      Src.units s src ++ (if -2 ^ (w - 1) ≤ q ∧ q < 2 ^ (w - 1) then [] else s.trapBus .ext) := by
  rw [divBus, Src.reads_eq_units, divError_of_quotient h]
  by_cases hr : -2 ^ (w - 1) ≤ q ∧ q < 2 ^ (w - 1) <;> simp [hr]

theorem divBus_of_zero {z : Size} {w : Nat} {n : Int} {src : Src z} (h : (Src.value s src).toInt = 0) :
    divBus s w n src = Src.units s src ++ s.trapBus .ext := by
  simp [divBus, Src.reads_eq_units, divError, h]

theorem Instr.bus_of_not_wf {i : Instr} (h : i.wf = false) : Instr.bus s i = s.trapBus .ext := by
  simp [Instr.bus, h]

theorem Instr.bus_of_normal {i : Instr} (hw : i.wf = true) (hp : Instr.isPrivileged i = true) (hm : s.sysMode = false) :
    Instr.bus s i = s.trapBus .priv := by
  simp [Instr.bus, hw, hp, hm]

theorem State.entryAccesses : s.EntryAccesses := by
  have div : ∀ {d src}, (Instr.div d src).wf = true → Instr.bus s (.div d src) = divBus s 16 (s.rr d).toInt src :=
    fun hw => Instr.bus_eq_effectBus hw (by simp [Instr.isPrivileged])
  have divl : ∀ {d src}, (Instr.divl d src).wf = true → Instr.bus s (.divl d src) = divBus s 32 (s.rq d).toInt src :=
    fun hw => Instr.bus_eq_effectBus hw (by simp [Instr.isPrivileged])
  refine ⟨fun d src hw q m h => ?_, fun d src hw q m h => ?_, fun d src hw h => ?_, fun d src hw h => ?_,
    fun page op h => ?_, fun i h => Instr.bus_of_not_wf s h, fun i hw hp hm => Instr.bus_of_normal s hw hp hm⟩
  · rw [div hw, divBus_of_quotient s h]
  · rw [divl hw, divBus_of_quotient s h]
  · rw [div hw, divBus_of_zero s h]
  · rw [divl hw, divBus_of_zero s h]
  · rw [Instr.bus_eq_effectBus rfl (by simp [Instr.isPrivileged])]
    simp [Instr.effectBus, h]

theorem State.trapBus_eq_units (k : Trap) : s.trapBus k =
    stackWord s.cfg true (s.ssp - 2) :: stackWord s.cfg true (s.ssp - 4) ::
      ((if (k.ident s).isSome then [stackWord s.cfg true (s.ssp - 6)] else []) ++
      [vectorWord s.cfg (s.vectorFcwAddr k), vectorWord s.cfg (s.vectorPcAddr k)]) := by
  cases k <;> rfl

end

section
variable {s t : State}

theorem step_recorded (h : step s = .next t) : s.Recorded t s.stepBus := by
  obtain ⟨u, ⟨-, made⟩, -, rfl⟩ := step_does h
  exact ⟨congrArg (· ++ s.stepBus) made.bus, made.mem, made.ports⟩

theorem isResetWord_of_not_notResetWord (h : ¬ s.NotResetWord) : isResetWord s.cfg (s.readWord .prog s.pc) = true := by
  simp only [State.NotResetWord, not_forall, not_not] at h
  obtain ⟨mask, value, hc, hv⟩ := h
  simp [isResetWord, hc, hv]

theorem decode_of_unassigned {w1 w2 w3 : Word} (h : decodeWords w1 w2 w3 = none) :
    decode (bytesOf [w1, w2, w3]) = .rejected .unassigned := by
  simp [decode, bytesOf, h]

end

/-- Settles O60: each kind of step makes the accesses `State.stepBus` lists (`step_does`), and these lists are the ones the
rules name. -/
theorem busAccessesAreRecorded : Obligations.BusAccessesAreRecorded := by
  refine ⟨fun s t => step_recorded, fun s i rest ha hh hw hd => ?_, fun s k => stepBus_of_acceptable,
    fun s => stepBus_of_halted, fun s ha hh hw hd => ?_, fun s ha hh hw => ?_,
    fun s => ⟨s.operandAccesses, s.stackAccesses, s.portAccesses, s.blockAccesses, s.noAccesses, s.entryAccesses⟩,
    State.trapBus_eq_units⟩
  · rw [stepBus_of_running ha hh, instrBus_of_decode (isResetWord_of_notResetWord hw) hd]
    rfl
  · rw [stepBus_of_running ha hh,
      instrBus_of_rejected (isResetWord_of_notResetWord hw) (decode_of_unassigned hd), s.fetchBus_one]
    rfl
  · rw [stepBus_of_running ha hh, instrBus_of_resetWord (isResetWord_of_not_notResetWord hw), s.fetchBus_one,
      resetBus_eq_resetReads]
    rfl

end Sys2Proof.Machine
end

section
/-! PROOFS of the statements about `30_encoding.md`: decoding the encoded words gives the instruction back (R110 to
R124). There is one rule for each shape of the words of an instruction; a rule's hypotheses say what the decoder answers
for the digits of each addressing mode, and hold by its definition. -/
namespace Sys2Proof
open Machine (slice_append append_low lo_append long_split)

/-- Decoding the bytes of the encoding gives the instruction back, whatever bytes follow. -/
def Instr.RoundTrips (i : Instr) : Prop := ∀ rest, decode (bytesOf i.encode ++ rest) = .ok i rest

/-! ## Memory operands (R112 to R114) -/

theorem ne_zero_of_ptrReg {a : Reg} (h : ptrReg a = true) : a ≠ 0 := bne_iff_ne.1 h

theorem memDax_of_ptrReg {a : Reg} {addr : Word} (h : ptrReg a = true) : memDax a addr = .x addr a :=
  if_neg (ne_zero_of_ptrReg h)

/-- An instruction with a memory operand: `w` is the first word for a mode digit and an address field. -/
theorem roundTrips_mem {f : MemOp → Instr} {m : MemOp} (w : Reg → Reg → Word) (hm : m.wf = true)
    (h0 : ∀ a x y, a ≠ 0 → decodeWords (w 0x0 a) x y = some (f (.ir a)))
    (h4 : ∀ a x y, decodeWords (w 0x4 a) x y = some (f (memDax a x)))
    (he : (f m).encode = w m.mode m.field :: m.ext := by rfl) (hl : (f m).words = 1 + m.extLen := by rfl) :
    (f m).RoundTrips := by
  intro rest
  rw [he]
  cases m with
  | ir a => exact decode_one hl (fun x y => h0 a x y (ne_zero_of_ptrReg hm)) rest
  | da addr => exact decode_two hl (h4 0 addr) rest
  | x addr a => exact decode_two hl (fun y => (h4 a addr y).trans (by rw [memDax_of_ptrReg hm])) rest

/-- The word `v` stands between the first word and the address (LDM). -/
theorem roundTrips_fieldsThenMem (p q u : Reg) (v : Word) (f : MemOp → Instr) {m : MemOp} (hm : m.wf = true)
    (h0 : ∀ a y, decodeDigits (0x0 + p) q a u v y = some (f (.ir a)))
    (h4 : ∀ a y, decodeDigits (0x4 + p) q a u v y = some (f (memDax a y)))
    (he : (f m).encode = join (m.mode + p) q m.field u :: v :: m.ext := by rfl)
    (hl : (f m).words = 2 + m.extLen := by rfl) : (f m).RoundTrips := by
  intro rest
  rw [he]
  cases m with
  | ir a => exact decode_two hl (fun y => (decodeWords_join ..).trans (h0 a y)) rest
  | da addr => exact decode_three hl ((decodeWords_join ..).trans (h4 0 addr)) rest
  | x addr a =>
    exact decode_three hl ((decodeWords_join ..).trans ((h4 a addr).trans (by rw [memDax_of_ptrReg hm]))) rest

/-- The immediate word `v` stands after the address (R114). -/
theorem roundTrips_memThenImm (p q u : Reg) (v : Word) (f : MemOp → Instr) {m : MemOp} (hm : m.wf = true)
    (h0 : ∀ a y, decodeDigits (0x0 + p) q a u v y = some (f (.ir a)))
    (h4 : ∀ a x, decodeDigits (0x4 + p) q a u x v = some (f (memDax a x)))
    (he : (f m).encode = m.encode p q u ++ [v] := by rfl) (hl : (f m).words = 2 + m.extLen := by rfl) :
    (f m).RoundTrips := by
  intro rest
  rw [he]
  cases m with
  | ir a => exact decode_two hl (fun y => (decodeWords_join ..).trans (h0 a y)) rest
  | da addr => exact decode_three hl ((decodeWords_join ..).trans (h4 0 addr)) rest
  | x addr a =>
    exact decode_three hl ((decodeWords_join ..).trans ((h4 a addr).trans (by rw [memDax_of_ptrReg hm]))) rest

/-- An instruction whose field A and mode are those of its memory operand, with `u` in field B. -/
theorem MemOp.roundTrips (p q u : Reg) (f : MemOp → Instr) {m : MemOp} (hm : m.wf = true)
    (h0 : ∀ a x y, a ≠ 0 → decodeDigits (0x0 + p) q a u x y = some (f (.ir a)) := by intros; rfl)
    (h4 : ∀ a x y, decodeDigits (0x4 + p) q a u x y = some (f (memDax a x)) := by intros; rfl)
    (he : (f m).encode = m.encode p q u := by rfl) (hl : (f m).words = 1 + m.extLen := by rfl) : (f m).RoundTrips :=
  roundTrips_mem (fun mode a => join (mode + p) q a u) hm (fun a x y ha => (decodeWords_join ..).trans (h0 a x y ha))
    (fun a x y => (decodeWords_join ..).trans (h4 a x y)) he hl

/-- As `MemOp.roundTrips`, with the register mode; `h8`, `h0`, `h4` are for the mode digits 8, 0 and 4. -/
theorem RegMem.roundTrips (p q u : Reg) (f : RegMem → Instr) {z : Size} {o : RegMem} (ho : o.wf z = true)
    (h8 : ∀ n x y, decodeDigits (0x8 + p) q n u x y = some (f (.reg n)) := by intros; rfl)
    (h0 : ∀ a x y, a ≠ 0 → decodeDigits (0x0 + p) q a u x y = some (f (.mem (.ir a))) := by intros; rfl)
    (h4 : ∀ a x y, decodeDigits (0x4 + p) q a u x y = some (f (.mem (memDax a x))) := by intros; rfl)
    (he : ∀ o, (f o).encode = o.encode p q u := by intro; rfl)
    (hl : ∀ o, (f o).words = 1 + o.extLen := by intro; rfl) : (f o).RoundTrips := by
  cases o with
  | reg n =>
    intro rest
    rw [he]
    exact decode_one (hl _) (fun x y => (decodeWords_join ..).trans (h8 n x y)) rest
  | mem m => exact m.roundTrips p q u (fun m => f (.mem m)) ho h0 h4 (he _) (hl _)

/-- The stack instructions: field A is the stack register, field B the operand's (R113). -/
theorem RegMem.roundTrips_stack (q r : Reg) (f : RegMem → Instr) {z : Size} {o : RegMem} (ho : o.wf z = true)
    (h9 : ∀ n x y, decodeDigits 0x9 q r n x y = some (f (.reg n)) := by intros; rfl)
    (h1 : ∀ a x y, decodeDigits 0x1 q r a x y = some (f (.mem (.ir a))) := by intros; rfl)
    (h5 : ∀ a x y, decodeDigits 0x5 q r a x y = some (f (.mem (memDax a x))) := by intros; rfl)
    (he : ∀ o, (f o).encode = join (o.mode + 0x1) q r o.field :: o.ext := by intro; rfl)
    (hl : ∀ o, (f o).words = 1 + o.extLen := by intro; rfl) : (f o).RoundTrips := by
  cases o with
  | reg n =>
    intro rest
    rw [he]
    exact decode_one (hl _) (fun x y => (decodeWords_join ..).trans (h9 n x y)) rest
  | mem m =>
    exact roundTrips_mem (f := fun m => f (.mem m)) (fun mode b => join (mode + 0x1) q r b) ho
      (fun a x y _ => (decodeWords_join ..).trans (h1 a x y)) (fun a x y => (decodeWords_join ..).trans (h5 a x y))
      (he _) (hl _)

/-! ## Sources with an immediate (R114) -/

/-- What mode class 00 reads at each width. -/
def srcIm : (z : Size) → Reg → Word → Word → Src z
  | .b, a, x, _ => srcImB a x
  | .w, a, x, _ => srcImW a x
  | .l, a, x, y => srcImL a x y

theorem srcIm_of_ne_zero (z : Size) {a : Reg} (ha : a ≠ 0) (x y : Word) : srcIm z a x y = .mem (.ir a) := by
  cases z <;> exact if_neg ha

/-- An instruction with an immediate, which follows the first word. -/
theorem roundTrips_imm {z : Size} {w : Word} {f : Src z → Instr} (k : z.Val)
    (h : ∀ x y, decodeWords w x y = some (f (srcIm z 0 x y))) (he : (f (.imm k)).encode = w :: immWords z k)
    (hl : (f (.imm k)).words = 1 + z.immLen) : (f (.imm k)).RoundTrips := by
  intro rest
  rw [he]
  cases z with
  | b => exact decode_two hl (fun y => (h (k ++ k) y).trans (by rw [srcIm, srcImB, if_pos rfl, lo_append])) rest
  | w => exact decode_two hl (fun y => h k y) rest
  | l => exact decode_three hl ((h _ _).trans (by rw [srcIm, srcImL, if_pos rfl, long_split])) rest

/-- As `RegMem.roundTrips`, with the immediate mode, which shares mode class 00 with IR (R112). -/
theorem Src.roundTrips {z : Size} (p q d : Reg) (f : Src z → Instr) {o : Src z} (ho : o.wf = true)
    (h8 : ∀ n x y, decodeDigits (0x8 + p) q n d x y = some (f (.reg n)) := by intros; rfl)
    (h0 : ∀ a x y, decodeDigits (0x0 + p) q a d x y = some (f (srcIm z a x y)) := by intros; rfl)
    (h4 : ∀ a x y, decodeDigits (0x4 + p) q a d x y = some (f (.mem (memDax a x))) := by intros; rfl)
    (he : ∀ o, (f o).encode = o.encode p q d := by intro; rfl)
    (hl : ∀ o, (f o).words = 1 + o.extLen := by intro; rfl) : (f o).RoundTrips := by
  cases o with
  | reg n =>
    intro rest
    rw [he]
    exact decode_one (hl _) (fun x y => (decodeWords_join ..).trans (h8 n x y)) rest
  | imm k => exact roundTrips_imm k (fun x y => (decodeWords_join ..).trans (h0 0 x y)) (he _) (hl _)
  | mem m =>
    exact m.roundTrips p q d (fun m => f (.mem m)) ho
      (fun a x y ha => (h0 a x y).trans (by rw [srcIm_of_ne_zero z ha])) h4 (he _) (hl _)

/-! ## Based operands (R112, R121) -/

/-- A based operand: `h3` is for BA, whose base field 0 would be RA, and `h7` for BX. -/
theorem Based.roundTrips (q b : Reg) (f : Based → Instr) {o : Based} (ho : o.wf = true)
    (h3 : ∀ a x y, a ≠ 0 → decodeDigits 0x3 q a b x y = some (f (.ba a x)) := by intro _ _ _ ha; exact if_neg ha)
    (h7 : ∀ a x y, decodeDigits 0x7 q a b x y = some (f (.bx a x.digit2)) := by intros; rfl)
    (he : (f o).encode = o.encode q b := by rfl) (hl : (f o).words = 2 := by rfl) : (f o).RoundTrips := by
  intro rest
  rw [he]
  cases o with
  | ba a disp =>
    exact decode_two hl (fun y => (decodeWords_join ..).trans (h3 a disp y (ne_zero_of_ptrReg ho))) rest
  | bx a x =>
    exact decode_two hl (fun y => (decodeWords_join ..).trans ((h7 a _ y).trans (by rw [digit2_join]))) rest

theorem LdSrc.roundTrips {z : Size} (p q qb d : Reg) (f : LdSrc z → Instr) {o : LdSrc z} (ho : o.wf = true)
    (h8 : ∀ n x y, decodeDigits (0x8 + p) q n d x y = some (f (.src (.reg n))) := by intros; rfl)
    (h0 : ∀ a x y, decodeDigits (0x0 + p) q a d x y = some (f (.src (srcIm z a x y))) := by intros; rfl)
    (h4 : ∀ a x y, decodeDigits (0x4 + p) q a d x y = some (f (.src (.mem (memDax a x)))) := by intros; rfl)
    (h3 : ∀ a x y, a ≠ 0 → decodeDigits 0x3 qb a d x y = some (f (.based (.ba a x))) := by
      intro _ _ _ ha; exact if_neg ha)
    (h7 : ∀ a x y, decodeDigits 0x7 qb a d x y = some (f (.based (.bx a x.digit2))) := by intros; rfl)
    (he : ∀ o, (f o).encode = o.encode p q qb d := by intro; rfl)
    (hl : ∀ o, (f o).words = 1 + o.extLen := by intro; rfl) : (f o).RoundTrips := by
  cases o with
  | src o => exact o.roundTrips p q d (fun o => f (.src o)) ho h8 h0 h4 (fun _ => he _) (fun _ => hl _)
  | based o => exact o.roundTrips qb d (fun o => f (.based o)) ho h3 h7 (he _) (hl _)

theorem StDst.roundTrips (p q qb r : Reg) (f : StDst → Instr) {o : StDst} (ho : o.wf = true)
    (h0 : ∀ a x y, a ≠ 0 → decodeDigits (0x0 + p) q a r x y = some (f (.mem (.ir a))) := by intros; rfl)
    (h4 : ∀ a x y, decodeDigits (0x4 + p) q a r x y = some (f (.mem (memDax a x))) := by intros; rfl)
    (h3 : ∀ a x y, a ≠ 0 → decodeDigits 0x3 qb a r x y = some (f (.based (.ba a x))) := by
      intro _ _ _ ha; exact if_neg ha)
    (h7 : ∀ a x y, decodeDigits 0x7 qb a r x y = some (f (.based (.bx a x.digit2))) := by intros; rfl)
    (he : ∀ o, (f o).encode = o.encode p q qb r := by intro; rfl)
    (hl : ∀ o, (f o).words = 1 + o.extLen := by intro; rfl) : (f o).RoundTrips := by
  cases o with
  | mem m => exact m.roundTrips p q r (fun m => f (.mem m)) ho h0 h4 (he _) (hl _)
  | based o => exact o.roundTrips qb r (fun o => f (.based o)) ho h3 h7 (he _) (hl _)

/-! ## Second words with fields (R121) -/

/-- The repeat marker is a bit of the last digit. -/
theorem Word.getLsbD_three (v : Word) : v.getLsbD 3 = v.digit0.getLsbD 3 := by
  rw [Word.digit0, BitVec.getLsbD_extractLsb']
  rfl

theorem decodeRep_one (r d s : Reg) (one rep : Reg → Reg → Reg → Instr) :
    decodeRep (join 0 r d 0x8) s one rep = some (one d s r) := by
  rw [decodeRep, Word.getLsbD_three, digit0_join, digit1_join, digit2_join]
  rfl

theorem decodeRep_repeating (r d s : Reg) (one rep : Reg → Reg → Reg → Instr) :
    decodeRep (join 0 r d 0x0) s one rep = some (rep d s r) := by
  rw [decodeRep, Word.getLsbD_three, digit0_join, digit1_join, digit2_join]
  rfl

theorem decodeCmp_join (r d s : Reg) (cc : Cc) (f : Reg → Reg → Reg → Cc → Instr) :
    decodeCmp (join 0 r d cc.bits) s f = some (f d s r cc) := by
  simp [decodeCmp]

/-- A second word with one register field, in digit 2 (DYN, SHD). -/
theorem roundTrips_digit2 (p q a b : Reg) (f : Reg → Instr) (r : Reg)
    (h : ∀ v y, decodeDigits p q a b v y = some (f v.digit2) := by intros; rfl)
    (he : (f r).encode = [join p q a b, join 0 r 0 0] := by rfl) (hl : (f r).words = 2 := by rfl) :
    (f r).RoundTrips := by
  intro rest
  rw [he]
  exact decode_two hl (fun y => (decodeWords_join ..).trans ((h _ y).trans (by rw [digit2_join]))) rest

/-- A second word with register fields in digits 1 and 2, the last digit `k` not read (translate). -/
theorem roundTrips_digits12 (p q a b k : Reg) (f : Reg → Reg → Instr) (s r : Reg)
    (h : ∀ v y, decodeDigits p q a b v y = some (f v.digit1 v.digit2) := by intros; rfl)
    (he : (f s r).encode = [join p q a b, join 0 r s k] := by rfl) (hl : (f s r).words = 2 := by rfl) :
    (f s r).RoundTrips := by
  intro rest
  rw [he]
  exact decode_two hl (fun y => (decodeWords_join ..).trans ((h _ y).trans (by rw [digit1_join, digit2_join]))) rest

/-! ## First words with other fields (R119, R120) -/

/-- The first word of CALR, by digits (R119). -/
theorem calr_eq_join (disp : BitVec 12) :
    (0xD#4 ++ disp : Word) = join 0xD (disp.extractLsb' 8 4) (disp.extractLsb' 4 4) (disp.extractLsb' 0 4) := by
  apply BitVec.eq_of_getLsbD_eq
  intro i hi
  simp only [join, BitVec.getLsbD_extractLsb', BitVec.getLsbD_append]
  grind

theorem decodeWords_calr (disp : BitVec 12) (x y : Word) : decodeWords (0xD#4 ++ disp) x y = some (.calr disp) := by
  have whole : disp.extractLsb' 8 4 ++ disp.extractLsb' 4 4 ++ disp.extractLsb' 0 4 = disp := by
    rw [slice_append disp 4 4 4, slice_append disp 0 8 4]
    exact BitVec.extractLsb'_eq_self
  rw [calr_eq_join, decodeWords_join]
  exact congrArg (fun d => some (Instr.calr d)) whole

/-- The first word of DJNZ (`k` set) and DBJNZ, by digits (R120). -/
theorem countdown_eq_join (r : Reg) (k : BitVec 1) (disp : BitVec 7) :
    (0xF#4 ++ r ++ k ++ disp : Word) = join 0xF r (k ++ disp.extractLsb' 4 3) (disp.extractLsb' 0 4) := by
  apply BitVec.eq_of_getLsbD_eq
  intro i hi
  simp only [join, BitVec.getLsbD_extractLsb', BitVec.getLsbD_append]
  grind

theorem decodeWords_countdown (r : Reg) (k : BitVec 1) (disp : BitVec 7) (x y : Word) :
    decodeWords (0xF#4 ++ r ++ k ++ disp) x y = some (if k.getLsbD 0 then .djnz r disp else .dbjnz r disp) := by
  have selector : (k ++ disp.extractLsb' 4 3).getLsbD 3 = k.getLsbD 0 := by rw [BitVec.getLsbD_append]; rfl
  have whole : (k ++ disp.extractLsb' 4 3).extractLsb' 0 3 ++ disp.extractLsb' 0 4 = disp := by
    rw [append_low, slice_append disp 0 3 4]
    exact BitVec.extractLsb'_eq_self
  rw [countdown_eq_join, decodeWords_join]
  show some (decodeF _ _ _) = _
  rw [decodeF, selector, whole]

/-! ## Every instruction -/

/-- Each constructor by the shape of its words: the digits are those of its row in the opcode table (R126). -/
theorem roundTrips_of_wf {i : Instr} (hw : i.wf = true) : i.RoundTrips := by
  cases i with
  | ld d src => exact src.roundTrips 0x2 0x1 0x1 d (.ld d) hw
  | ldb d src => exact src.roundTrips 0x2 0x0 0x0 d (.ldb d) hw
  | ldl d src => exact src.roundTrips 0x1 0x4 0x5 d (.ldl d) (Bool.and_eq_true_iff.1 hw).2
  | ldSt dst r => exact dst.roundTrips 0x2 0xF 0x3 r (.ldSt · r) hw
  | ldbSt dst r => exact dst.roundTrips 0x2 0xE 0x2 r (.ldbSt · r) hw
  | ldlSt dst r => exact dst.roundTrips 0x1 0xD 0x7 r (.ldlSt · r) (Bool.and_eq_true_iff.1 hw).1
  | ldImm dst k => exact roundTrips_memThenImm 0x0 0xD 0x5 k (.ldImm · k) hw (fun _ _ => rfl) (fun _ _ => rfl)
  | cpImm dst k => exact roundTrips_memThenImm 0x0 0xD 0x1 k (.cpImm · k) hw (fun _ _ => rfl) (fun _ _ => rfl)
  | ldbImm dst k =>
    have lo := lo_append k k
    exact roundTrips_memThenImm 0x0 0xC 0x5 (k ++ k) (.ldbImm · k) hw
      (fun a _ => congrArg (fun k => some (Instr.ldbImm (.ir a) k)) lo)
      (fun a x => congrArg (fun k => some (Instr.ldbImm (memDax a x) k)) lo)
  | cpbImm dst k =>
    have lo := lo_append k k
    exact roundTrips_memThenImm 0x0 0xC 0x1 (k ++ k) (.cpbImm · k) hw
      (fun a _ => congrArg (fun k => some (Instr.cpbImm (.ir a) k)) lo)
      (fun a x => congrArg (fun k => some (Instr.cpbImm (memDax a x) k)) lo)
  | lda d src =>
    cases src with
    | da addr => exact decode_two rfl fun _ => decodeWords_join ..
    | x addr a => exact decode_two rfl fun _ => (decodeWords_join ..).trans (if_neg (ne_zero_of_ptrReg hw))
    | based o => exact o.roundTrips 0x4 d (fun o => .lda d (.based o)) hw
  | ldm d src n =>
    exact roundTrips_fieldsThenMem 0x1 0xC 0x1 (join 0 d 0 n) (.ldm d · n) hw
      (fun a _ => congrArg₂ (fun d n => some (Instr.ldm d (.ir a) n)) (digit2_join ..) (digit0_join ..))
      (fun a y => congrArg₂ (fun d n => some (Instr.ldm d (memDax a y) n)) (digit2_join ..) (digit0_join ..))
  | ldmSt dst r n =>
    exact roundTrips_fieldsThenMem 0x1 0xC 0x9 (join 0 r 0 n) (.ldmSt · r n) hw
      (fun a _ => congrArg₂ (fun r n => some (Instr.ldmSt (.ir a) r n)) (digit2_join ..) (digit0_join ..))
      (fun a y => congrArg₂ (fun r n => some (Instr.ldmSt (memDax a y) r n)) (digit2_join ..) (digit0_join ..))
  | push d src =>
    have hs := (Bool.and_eq_true_iff.1 hw).2
    cases src with
    | reg n => exact decode_one rfl fun _ _ => decodeWords_join ..
    | imm k => exact decode_two rfl fun _ => decodeWords_join ..
    | mem m =>
      exact roundTrips_mem (f := fun m => .push d (.mem m)) (fun mode b => join (mode + 0x1) 0x3 d b) hs
        (fun _ _ _ _ => decodeWords_join ..) (fun _ _ _ => decodeWords_join ..)
  | pushl d src => exact src.roundTrips_stack 0x1 d (.pushl d) (Bool.and_eq_true_iff.1 hw).2
  | pop dst s => exact dst.roundTrips_stack 0x7 s (.pop · s) (Bool.and_eq_true_iff.1 hw).2
  | popl dst s => exact dst.roundTrips_stack 0x5 s (.popl · s) (Bool.and_eq_true_iff.1 hw).2
  | add d src => exact src.roundTrips 0x0 0x1 d (.add d) hw
  | addb d src => exact src.roundTrips 0x0 0x0 d (.addb d) hw
  | sub d src => exact src.roundTrips 0x0 0x3 d (.sub d) hw
  | subb d src => exact src.roundTrips 0x0 0x2 d (.subb d) hw
  | or d src => exact src.roundTrips 0x0 0x5 d (.or d) hw
  | orb d src => exact src.roundTrips 0x0 0x4 d (.orb d) hw
  | and d src => exact src.roundTrips 0x0 0x7 d (.and d) hw
  | andb d src => exact src.roundTrips 0x0 0x6 d (.andb d) hw
  | xor d src => exact src.roundTrips 0x0 0x9 d (.xor d) hw
  | xorb d src => exact src.roundTrips 0x0 0x8 d (.xorb d) hw
  | cp d src => exact src.roundTrips 0x0 0xB d (.cp d) hw
  | cpb d src => exact src.roundTrips 0x0 0xA d (.cpb d) hw
  | cpl d src => exact src.roundTrips 0x1 0x0 d (.cpl d) (Bool.and_eq_true_iff.1 hw).2
  | subl d src => exact src.roundTrips 0x1 0x2 d (.subl d) (Bool.and_eq_true_iff.1 hw).2
  | addl d src => exact src.roundTrips 0x1 0x6 d (.addl d) (Bool.and_eq_true_iff.1 hw).2
  | multl d src => exact src.roundTrips 0x1 0x8 d (.multl d) (Bool.and_eq_true_iff.1 hw).2
  | mult d src => exact src.roundTrips 0x1 0x9 d (.mult d) (Bool.and_eq_true_iff.1 hw).2
  | divl d src => exact src.roundTrips 0x1 0xA d (.divl d) (Bool.and_eq_true_iff.1 hw).2
  | div d src => exact src.roundTrips 0x1 0xB d (.div d) (Bool.and_eq_true_iff.1 hw).2
  | clr dst => exact dst.roundTrips 0x0 0xD 0x8 .clr hw
  | clrb dst => exact dst.roundTrips 0x0 0xC 0x8 .clrb hw
  | neg dst => exact dst.roundTrips 0x0 0xD 0x2 .neg hw
  | negb dst => exact dst.roundTrips 0x0 0xC 0x2 .negb hw
  | com dst => exact dst.roundTrips 0x0 0xD 0x0 .com hw
  | comb dst => exact dst.roundTrips 0x0 0xC 0x0 .comb hw
  | test dst => exact dst.roundTrips 0x0 0xD 0x4 .test hw
  | testb dst => exact dst.roundTrips 0x0 0xC 0x4 .testb hw
  | tset dst => exact dst.roundTrips 0x0 0xD 0x6 .tset hw
  | tsetb dst => exact dst.roundTrips 0x0 0xC 0x6 .tsetb hw
  | testl dst => exact dst.roundTrips 0x1 0xC 0x8 .testl hw
  | inc dst n => exact dst.roundTrips 0x2 0x9 n (.inc · n) hw
  | incb dst n => exact dst.roundTrips 0x2 0x8 n (.incb · n) hw
  | dec dst n => exact dst.roundTrips 0x2 0xB n (.dec · n) hw
  | decb dst n => exact dst.roundTrips 0x2 0xA n (.decb · n) hw
  | bit dst n => exact dst.roundTrips 0x2 0x7 n (.bit · n) hw (h0 := fun _ _ _ ha => if_neg ha)
  | bitb dst n => exact dst.roundTrips 0x2 0x6 n (.bitb · n) hw (h0 := fun _ _ _ ha => if_neg ha)
  | set dst n => exact dst.roundTrips 0x2 0x5 n (.set · n) hw (h0 := fun _ _ _ ha => if_neg ha)
  | setb dst n => exact dst.roundTrips 0x2 0x4 n (.setb · n) hw (h0 := fun _ _ _ ha => if_neg ha)
  | res dst n => exact dst.roundTrips 0x2 0x3 n (.res · n) hw (h0 := fun _ _ _ ha => if_neg ha)
  | resb dst n => exact dst.roundTrips 0x2 0x2 n (.resb · n) hw (h0 := fun _ _ _ ha => if_neg ha)
  | ex d src => exact src.roundTrips 0x2 0xD d (.ex d) hw
  | exb d src => exact src.roundTrips 0x2 0xC d (.exb d) hw
  | jp cc dst =>
    exact dst.roundTrips 0x1 0xE cc.bits (.jp cc) hw
      (fun a _ _ _ => congrArg (fun k => some (Instr.jp k (.ir a))) cc.ofBits_bits)
      (fun a x _ => congrArg (fun k => some (Instr.jp k (memDax a x))) cc.ofBits_bits)
  | call dst => exact dst.roundTrips 0x1 0xF 0x0 .call hw
  | ldps src =>
    cases src with
    | ir a => exact decode_one rfl fun _ _ => decodeWords_join ..
    | da addr => exact decode_two rfl fun _ => decodeWords_join ..
    | x addr a =>
      exact decode_two rfl fun _ => (decodeWords_join ..).trans
        (congrArg (fun m => some (Instr.ldps m)) (memDax_of_ptrReg hw))
  | bitDyn d s => exact roundTrips_digit2 0x2 0x7 0x0 s (.bitDyn · s) d
  | bitbDyn d s => exact roundTrips_digit2 0x2 0x6 0x0 s (.bitbDyn · s) d
  | setDyn d s => exact roundTrips_digit2 0x2 0x5 0x0 s (.setDyn · s) d
  | setbDyn d s => exact roundTrips_digit2 0x2 0x4 0x0 s (.setbDyn · s) d
  | resDyn d s => exact roundTrips_digit2 0x2 0x3 0x0 s (.resDyn · s) d
  | resbDyn d s => exact roundTrips_digit2 0x2 0x2 0x0 s (.resbDyn · s) d
  | sda d s => exact roundTrips_digit2 0xB 0x3 d 0xB (.sda d) s
  | sdab d s => exact roundTrips_digit2 0xB 0x2 d 0xB (.sdab d) s
  | sdal d s => exact roundTrips_digit2 0xB 0x3 d 0xF (.sdal d) s
  | sdl d s => exact roundTrips_digit2 0xB 0x3 d 0x3 (.sdl d) s
  | sdlb d s => exact roundTrips_digit2 0xB 0x2 d 0x3 (.sdlb d) s
  | sdll d s => exact roundTrips_digit2 0xB 0x3 d 0x7 (.sdll d) s
  | trib d s r => exact roundTrips_digits12 0xB 0x8 d 0x0 0x0 (.trib d) s r
  | trirb d s r => exact roundTrips_digits12 0xB 0x8 d 0x4 0x0 (.trirb d) s r
  | trdb d s r => exact roundTrips_digits12 0xB 0x8 d 0x8 0x0 (.trdb d) s r
  | trdrb d s r => exact roundTrips_digits12 0xB 0x8 d 0xC 0x0 (.trdrb d) s r
  | trtib d s r => exact roundTrips_digits12 0xB 0x8 d 0x2 0x0 (.trtib d) s r
  | trtirb d s r => exact roundTrips_digits12 0xB 0x8 d 0x6 0xE (.trtirb d) s r
  | trtdb d s r => exact roundTrips_digits12 0xB 0x8 d 0xA 0x0 (.trtdb d) s r
  | trtdrb d s r => exact roundTrips_digits12 0xB 0x8 d 0xE 0xE (.trtdrb d) s r
  | adc d s | adcb d s | sbc d s | sbcb d s | rldb d s | rrdb d s | inInd d s | inbInd d s | outInd d s
  | outbInd d s =>
    exact decode_one rfl fun _ _ => decodeWords_join ..
  | extsb d | exts d | extsl d | dab d | mreq d | ldctlbRead d | ldctlbWrite d | setflg d | resflg d
  | comflg d | ldk d n =>
    exact decode_one rfl fun _ _ => decodeWords_join ..
  | nop | halt | iret | mset | mres | mbit => exact decode_one rfl fun _ _ => rfl
  | slaSra d k | slabSrab d k | slalSral d k | sllSrl d k | sllbSrlb d k | slllSrll d k | ldr d k | ldrb d k
  | ldrl d k | ldar d k | inDir d k | inbDir d k | sin d k | sinb d k =>
    exact decode_two rfl fun _ => decodeWords_join ..
  | ldrSt k r | ldrbSt k r | ldrlSt k r | outDir k r | outbDir k r | sout k r | soutb k r =>
    exact decode_two rfl fun _ => decodeWords_join ..
  | rl d twice | rlb d twice | rr d twice | rrb d twice | rlc d twice | rlcb d twice | rrc d twice | rrcb d twice =>
    cases twice <;> exact decode_one rfl fun _ _ => decodeWords_join ..
  | di v n | ei v n => cases v <;> cases n <;> exact decode_one rfl fun _ _ => decodeWords_join ..
  | ldctlRead d k | ldctlWrite k d => cases k <;> exact decode_one rfl fun _ _ => decodeWords_join ..
  | tcc cc d =>
    exact decode_one rfl fun _ _ => (decodeWords_join ..).trans
      (congrArg (fun k => some (Instr.tcc k d)) cc.ofBits_bits)
  | tccb cc d =>
    exact decode_one rfl fun _ _ => (decodeWords_join ..).trans
      (congrArg (fun k => some (Instr.tccb k d)) cc.ofBits_bits)
  | ret cc =>
    exact decode_one rfl fun _ _ => (decodeWords_join ..).trans
      (congrArg (fun k => some (Instr.ret k)) cc.ofBits_bits)
  | jr cc disp =>
    exact decode_one rfl fun _ _ => (decodeWords_join ..).trans
      (congrArg₂ (fun u k => some (Instr.jr u k)) cc.ofBits_bits (byteOf_digits disp))
  | ldbShort d k =>
    exact decode_one rfl fun _ _ => (decodeWords_join ..).trans
      (congrArg (fun k => some (Instr.ldbShort d k)) (byteOf_digits k))
  | sc code =>
    exact decode_one rfl fun _ _ => (decodeWords_join ..).trans
      (congrArg (fun k => some (Instr.sc k)) (byteOf_digits code))
  | epu page op =>
    cases page <;>
      exact decode_one rfl fun _ _ => (decodeWords_join ..).trans
        (congrArg (fun k => some (Instr.epu _ k)) (byteOf_digits op))
  | calr disp => exact decode_one rfl (decodeWords_calr disp)
  | djnz r disp => exact decode_one rfl (decodeWords_countdown r 1 disp)
  | dbjnz r disp => exact decode_one rfl (decodeWords_countdown r 0 disp)
  | ldi d s r | ldd d s r | ldib d s r | lddb d s r | ini d s r | ind d s r | inib d s r | indb d s r | sini d s r
  | sind d s r | sinib d s r | sindb d s r | outi d s r | outd d s r | outib d s r | outdb d s r | souti d s r
  | soutd d s r | soutib d s r | soutdb d s r =>
    exact decode_two rfl fun _ => (decodeWords_join ..).trans (decodeRep_one ..)
  | ldir d s r | lddr d s r | ldirb d s r | lddrb d s r | inir d s r | indr d s r | inirb d s r | indrb d s r
  | sinir d s r | sindr d s r | sinirb d s r | sindrb d s r | otir d s r | otdr d s r | otirb d s r | otdrb d s r
  | sotir d s r | sotdr d s r | sotirb d s r | sotdrb d s r =>
    exact decode_two rfl fun _ => (decodeWords_join ..).trans (decodeRep_repeating ..)
  | cpi d s r cc | cpir d s r cc | cpd d s r cc | cpdr d s r cc | cpib d s r cc | cpirb d s r cc | cpdb d s r cc
  | cpdrb d s r cc | cpsi d s r cc | cpsir d s r cc | cpsd d s r cc | cpsdr d s r cc | cpsib d s r cc
  | cpsirb d s r cc | cpsdb d s r cc | cpsdrb d s r cc =>
    exact decode_two rfl fun _ => (decodeWords_join ..).trans (decodeCmp_join ..)

/-- Settles O1: one rule for each shape of an instruction's words (`roundTrips_of_wf`); being well-formed matters where
mode class 00 or 01 has another meaning for a field of 0 (R112). -/
theorem decodeInvertsEncode : Obligations.DecodeInvertsEncode := fun _ rest hw => roundTrips_of_wf hw rest

/-- Settles O2: the decoder is run on each of the twelve byte sequences. -/
theorem writtenWordsDecode : Obligations.WrittenWordsDecode :=
  ⟨rfl, rfl, rfl, rfl, rfl, rfl, rfl, rfl, rfl, rfl, rfl, rfl⟩

end Sys2Proof
end

section
/-! PROOFS of the statements about `30_encoding.md`: what the first word decides (R110, R126, R127). -/
namespace Sys2Proof
open Machine (unassigned usedDigits slice_append hi_append lo_append hi_append_lo)

/-- A case for each value of a digit. -/
theorem Reg.byDigit {P : Reg → Prop} (h0 : P 0x0) (h1 : P 0x1) (h2 : P 0x2) (h3 : P 0x3) (h4 : P 0x4) (h5 : P 0x5)
    (h6 : P 0x6) (h7 : P 0x7) (h8 : P 0x8) (h9 : P 0x9) (hA : P 0xA) (hB : P 0xB) (hC : P 0xC) (hD : P 0xD)
    (hE : P 0xE) (hF : P 0xF) (n : Reg) : P n := by
  have h : n ∈ [0x0, 0x1, 0x2, 0x3, 0x4, 0x5, 0x6, 0x7, 0x8, 0x9, 0xA, 0xB, 0xC, 0xD, 0xE, 0xF] := by
    revert n
    decide
  simp only [List.mem_cons, List.not_mem_nil, or_false] at h
  rcases h with rfl | rfl | rfl | rfl | rfl | rfl | rfl | rfl | rfl | rfl | rfl | rfl | rfl | rfl | rfl | rfl <;>
    assumption

/-! ## Lengths (R110)

For each part of the decoder: other second and third words give an answer of the same length. -/

@[simp] theorem memDax_extLen (a : Reg) (x : Word) : (memDax a x).extLen = 1 := by
  unfold memDax
  split <;> rfl

@[simp] theorem srcImB_extLen (a : Reg) (x : Word) : (srcImB a x).extLen = if a = 0 then 1 else 0 := by
  unfold srcImB
  split <;> rfl

@[simp] theorem srcImW_extLen (a : Reg) (x : Word) : (srcImW a x).extLen = if a = 0 then 1 else 0 := by
  unfold srcImW
  split <;> rfl

@[simp] theorem srcImL_extLen (a : Reg) (x y : Word) : (srcImL a x y).extLen = if a = 0 then 2 else 0 := by
  unfold srcImL
  split <;> rfl

@[simp] theorem RegMem.extLen_mem (m : MemOp) : (RegMem.mem m).extLen = m.extLen := rfl
@[simp] theorem Src.extLen_mem (z : Size) (m : MemOp) : (Src.mem m : Src z).extLen = m.extLen := rfl
@[simp] theorem LdSrc.extLen_src {z : Size} (o : Src z) : (LdSrc.src o).extLen = o.extLen := rfl
@[simp] theorem StDst.extLen_mem (m : MemOp) : (StDst.mem m).extLen = m.extLen := rfl

/-- Both answers reject, or both are instructions of one length. -/
def SameWords (i j : Option Instr) : Prop := i.map Instr.words = j.map Instr.words

theorem SameWords.ite {c : Prop} [Decidable c] {i i' j j' : Option Instr} (h : SameWords i i') (k : SameWords j j') :
    SameWords (if c then i else j) (if c then i' else j') := by
  split
  · exact h
  · exact k

section
variable (p q a b : Reg) (x y x' y' : Word)

theorem decodeMemB_words {m m' : MemOp} (h : m.extLen = m'.extLen) :
    SameWords (decodeMemB m b x) (decodeMemB m' b x') := by
  cases b using Reg.byDigit <;> simp [SameWords, decodeMemB, Instr.words, h]

theorem decodeMemW_words {m m' : MemOp} (h : m.extLen = m'.extLen) :
    SameWords (decodeMemW m b x) (decodeMemW m' b x') := by
  cases b using Reg.byDigit <;> simp [SameWords, decodeMemW, Instr.words, h]

theorem decodeLdm_words {m m' n n' : MemOp} (h : m.extLen = m'.extLen) (k : n.extLen = n'.extLen) :
    SameWords (decodeLdm m n b x) (decodeLdm m' n' b x') := by
  cases b using Reg.byDigit <;> simp [SameWords, decodeLdm, Instr.words, h, k]

theorem decodeBit_words (dyn : Reg → Reg → Instr) (static : RegMem → BitVec 4 → Instr)
    (h : ∀ d d' s, (dyn d s).words = (dyn d' s).words) :
    SameWords (decodeBit a b x dyn static) (decodeBit a b x' dyn static) :=
  .ite (congrArg some (h _ _ _)) rfl

theorem decode0_words : SameWords (decode0 q a b x) (decode0 q a b x') := by
  cases q using Reg.byDigit
  case hC => exact decodeMemB_words b x x' rfl
  case hD => cases b using Reg.byDigit <;> rfl
  all_goals simp [SameWords, decode0, decodeAlu, Instr.words]

theorem decode1_words : SameWords (decode1 q a b x y) (decode1 q a b x' y') := by
  cases q using Reg.byDigit
  case hC => exact decodeLdm_words b x x' rfl rfl
  all_goals simp [SameWords, decode1, Instr.words]

theorem decode2_words : SameWords (decode2 q a b x) (decode2 q a b x') := by
  cases q using Reg.byDigit
  case h0 | h1 => simp [SameWords, decode2, Instr.words]
  case h2 | h3 | h4 | h5 | h6 | h7 => exact decodeBit_words a b x x' _ _ fun _ _ _ => rfl
  all_goals rfl

theorem decodeRep_words {one rep : Reg → Reg → Reg → Instr} (h1 : ∀ d s r, (one d s r).words = 2)
    (h2 : ∀ d s r, (rep d s r).words = 2) :
    SameWords (decodeRep x a one rep) (decodeRep x' a one rep) := by
  have h : ∀ x, (decodeRep x a one rep).map Instr.words = some 2 := by
    intro x
    unfold decodeRep
    split
    · exact congrArg some (h1 _ _ _)
    · exact congrArg some (h2 _ _ _)
  exact (h x).trans (h x').symm

theorem decode3A_words : SameWords (decode3A a b x) (decode3A a b x') := by
  cases b using Reg.byDigit
  case h4 | h5 | h6 | h7 | hC | hD | hE | hF => rfl
  all_goals apply decodeRep_words <;> exact fun _ _ _ => rfl

theorem decode3B_words : SameWords (decode3B a b x) (decode3B a b x') := by
  cases b using Reg.byDigit
  case h4 | h5 | h6 | h7 | hC | hD | hE | hF => rfl
  all_goals apply decodeRep_words <;> exact fun _ _ _ => rfl

theorem decode3_words : SameWords (decode3 q a b x) (decode3 q a b x') := by
  cases q using Reg.byDigit
  case hA => exact decode3A_words a b x x'
  case hB => exact decode3B_words a b x x'
  case h6 | h8 | h9 | hC | hD | hE | hF => rfl
  all_goals exact SameWords.ite rfl rfl

theorem decode4_words : SameWords (decode4 q a b x y) (decode4 q a b x' y') := by
  cases q using Reg.byDigit
  case hC => exact decodeMemB_words b y y' (by simp)
  case hD => exact decodeMemW_words b y y' (by simp)
  all_goals simp [SameWords, decode4, decodeAlu, Instr.words]

theorem decode5_words : SameWords (decode5 q a b x y) (decode5 q a b x' y') := by
  cases q using Reg.byDigit
  case hC => exact decodeLdm_words b x x' (by simp) (by simp)
  all_goals simp [SameWords, decode5, Instr.words]

theorem decode6_words : SameWords (decode6 q a b x) (decode6 q a b x') := by
  cases q using Reg.byDigit <;> simp [SameWords, decode6, Instr.words]

theorem decode7_words : SameWords (decode7 q a b x) (decode7 q a b x') := by
  cases q using Reg.byDigit
  case h6 => exact .ite rfl rfl
  case h9 => simp [SameWords, decode7, Instr.words]
  all_goals rfl

theorem decodeBA_words : SameWords (decodeBA a b x) (decodeBA a b x') := by
  cases b using Reg.byDigit
  case h1 | h9 => apply decodeRep_words <;> exact fun _ _ _ => rfl
  all_goals rfl

theorem decodeBB_words : SameWords (decodeBB a b x) (decodeBB a b x') := by
  cases b using Reg.byDigit
  case h1 | h9 => apply decodeRep_words <;> exact fun _ _ _ => rfl
  all_goals rfl

theorem decodeB2_words : SameWords (decodeB2 a b x) (decodeB2 a b x') := by
  cases b using Reg.byDigit <;> rfl

theorem decodeB3_words : SameWords (decodeB3 a b x) (decodeB3 a b x') := by
  cases b using Reg.byDigit <;> rfl

theorem decodeB8_words : SameWords (decodeB8 a b x) (decodeB8 a b x') := by
  cases b using Reg.byDigit <;> rfl

theorem decodeB_words : SameWords (decodeB q a b x) (decodeB q a b x') := by
  cases q using Reg.byDigit
  case hA => exact decodeBA_words a b x x'
  case hB => exact decodeBB_words a b x x'
  case h2 => exact decodeB2_words a b x x'
  case h3 => exact decodeB3_words a b x x'
  case h8 => exact decodeB8_words a b x x'
  all_goals rfl

theorem decodeDigits_words : SameWords (decodeDigits p q a b x y) (decodeDigits p q a b x' y') := by
  cases p using Reg.byDigit
  case h0 => exact decode0_words q a b x x'
  case h1 => exact decode1_words q a b x y x' y'
  case h2 => exact decode2_words q a b x x'
  case h3 => exact decode3_words q a b x x'
  case h4 => exact decode4_words q a b x y x' y'
  case h5 => exact decode5_words q a b x y x' y'
  case h6 => exact decode6_words q a b x x'
  case h7 => exact decode7_words q a b x x'
  case hB => exact decodeB_words q a b x x'
  all_goals rfl

end

theorem MemOp.extLen_le (m : MemOp) : m.extLen ≤ 1 := by cases m <;> simp [MemOp.extLen]

theorem RegMem.extLen_le (o : RegMem) : o.extLen ≤ 1 := by
  cases o with
  | reg _ => exact Nat.zero_le 1
  | mem m => exact m.extLen_le

theorem Src.extLen_le {z : Size} (o : Src z) : o.extLen ≤ 2 := by
  cases o with
  | reg _ => exact Nat.zero_le 2
  | imm _ => cases z <;> exact Nat.le_of_ble_eq_true rfl
  | mem m => exact m.extLen_le.trans (by decide)

theorem LdSrc.extLen_le {z : Size} (o : LdSrc z) : o.extLen ≤ 2 := by
  cases o with
  | src o => exact o.extLen_le
  | based _ => exact Nat.le_succ 1

theorem StDst.extLen_le (o : StDst) : o.extLen ≤ 1 := by
  cases o with
  | mem m => exact m.extLen_le
  | based _ => exact Nat.le_refl 1

theorem Instr.words_bounds (i : Instr) : 1 ≤ i.words ∧ i.words ≤ 3 := by
  have add : ∀ {n k m : Nat}, 1 ≤ n → k ≤ m → n + m ≤ 3 → 1 ≤ n + k ∧ n + k ≤ 3 := by omega
  cases i with
  | ld _ o | ldb _ o | ldl _ o => exact add (n := 1) (by decide) o.extLen_le (by decide)
  | ldSt o _ | ldbSt o _ | ldlSt o _ => exact add (n := 1) (by decide) o.extLen_le (by decide)
  | push _ o | add _ o | addb _ o | addl _ o | sub _ o | subb _ o | subl _ o | cp _ o | cpb _ o | cpl _ o | mult _ o
  | multl _ o | div _ o | divl _ o | and _ o | andb _ o | or _ o | orb _ o | xor _ o | xorb _ o =>
    exact add (n := 1) (by decide) o.extLen_le (by decide)
  | clr o | clrb o | ex _ o | exb _ o | pushl _ o | pop o _ | popl o _ | inc o _ | incb o _ | dec o _ | decb o _ | neg o
  | negb o | com o | comb o | test o | testb o | testl o | bit o _ | bitb o _ | set o _ | setb o _ | res o _ | resb o _
  | tset o | tsetb o => exact add (n := 1) (by decide) o.extLen_le (by decide)
  | jp _ m | call m | ldps m => exact add (n := 1) (by decide) m.extLen_le (by decide)
  | ldImm m _ | ldbImm m _ | cpImm m _ | cpbImm m _ | ldm _ m _ | ldmSt m _ _ =>
    exact add (n := 2) (by decide) m.extLen_le (by decide)
  | _ => exact ⟨Nat.le_of_ble_eq_true rfl, Nat.le_of_ble_eq_true rfl⟩

/-- Settles O4: the second and third words decide neither whether there is an instruction nor its number of words
(`decodeDigits_words`), which is never 0 nor above 3. -/
theorem firstWordDecidesLength : Obligations.FirstWordDecidesLength := by
  intro w1 w2 w3 v2 v3
  have same : SameWords (decodeWords w1 w2 w3) (decodeWords w1 v2 v3) := decodeDigits_words ..
  unfold SameWords at same
  refine ⟨?_, fun i j hi hj => ?_⟩
  · simpa using congrArg Option.isSome same
  · rw [hi, hj] at same
    exact ⟨Option.some.inj same, i.words_bounds⟩

/-! ## Rejected words (R127) -/

/-- A word as its two bytes. -/
theorem join_eq_bytes (p q a b : Reg) : join p q a b = byteOf p q ++ byteOf a b := by
  apply BitVec.eq_of_getLsbD_eq
  intro i hi
  simp only [join, byteOf, BitVec.getLsbD_append]
  grind

theorem Word.join_digits (w : Word) : join w.digit3 w.digit2 w.digit1 w.digit0 = w := by
  have high : w.digit3 ++ w.digit2 = w.hi := slice_append w 8 4 4
  have low : w.digit1 ++ w.digit0 = w.lo := slice_append w 0 4 4
  rw [join_eq_bytes, byteOf, byteOf, high, low, hi_append_lo]

@[simp] theorem hi_join (p q a b : Reg) : (join p q a b).hi = byteOf p q := by
  rw [join_eq_bytes, hi_append]

@[simp] theorem lo_join (p q a b : Reg) : (join p q a b).lo = byteOf a b := by
  rw [join_eq_bytes, lo_append]

/-! For each part of the decoder: where it answers `none`, as `usedDigits` and `unassigned` say it. -/

section
variable (q a b : Reg) (x y : Word) (m n : MemOp)

theorem decodeMemB_eq_none_iff : decodeMemB m b x = none ↔ b ∉ [0, 1, 2, 4, 5, 6, 8] := by
  unfold decodeMemB
  split <;> simp_all

theorem decodeMemW_eq_none_iff : decodeMemW m b x = none ↔ b ∉ [0, 1, 2, 4, 5, 6, 8] := by
  unfold decodeMemW
  split <;> simp_all

theorem decodeLdm_eq_none_iff : decodeLdm m n b x = none ↔ b ∉ [1, 8, 9] := by
  unfold decodeLdm
  split <;> simp_all

theorem decode3A_eq_none_iff : decode3A a b x = none ↔ b ∉ [0, 1, 2, 3, 4, 5, 6, 7, 8, 9, 10, 11] := by
  unfold decode3A decodeRep
  split <;> simp_all

theorem decode3B_eq_none_iff : decode3B a b x = none ↔ b ∉ [0, 1, 2, 3, 4, 5, 6, 7, 8, 9, 10, 11] := by
  unfold decode3B decodeRep
  split <;> simp_all

theorem decodeB2_eq_none_iff : decodeB2 a b x = none ↔ b ∉ [0, 1, 2, 3, 4, 6, 8, 9, 10, 11, 12, 14] := by
  unfold decodeB2
  split <;> simp_all

theorem decodeB3_ne_none : decodeB3 a b x ≠ none := by
  unfold decodeB3
  split <;> simp_all

theorem decodeB8_eq_none_iff : decodeB8 a b x = none ↔ b ∉ [0, 2, 4, 6, 8, 10, 12, 14] := by
  unfold decodeB8
  split <;> simp_all

theorem decodeBA_eq_none_iff : decodeBA a b x = none ↔ b ∉ [0, 1, 2, 4, 6, 8, 9, 10, 12, 14] := by
  unfold decodeBA decodeRep decodeCmp
  split <;> simp_all

theorem decodeBB_eq_none_iff : decodeBB a b x = none ↔ b ∉ [0, 1, 2, 4, 6, 8, 9, 10, 12, 14] := by
  unfold decodeBB decodeRep decodeCmp
  split <;> simp_all

theorem ite_some_ne_none {c : Prop} [Decidable c] (i j : Instr) : (if c then some i else some j) ≠ none := by
  split <;> simp

theorem decodeBit_ne_none (dyn : Reg → Reg → Instr) (static : RegMem → BitVec 4 → Instr) :
    decodeBit a b x dyn static ≠ none := ite_some_ne_none _ _

theorem decode7B_eq_none_iff : decode7B a b = none ↔ ¬(byteOf a b ∈ [0x00, 0x08, 0x09, 0x0A] ∨ b = 0xD) := by
  revert a b
  decide

theorem decode7C_eq_none_iff : decode7C a b = none ↔ 0x08 ≤ byteOf a b := by
  revert a b
  decide

theorem decodeCtl_eq_none_iff : decodeCtl a b = none ↔ b ∉ [2, 3, 5, 7, 10, 11, 13, 15] := by
  revert a b
  decide

theorem append_eq_zero_iff : a ++ b = 0#8 ↔ a = 0 ∧ b = 0 := by
  revert a b
  decide

theorem decode0_eq_none_iff : decode0 q a b x = none ↔ unassigned (join 0x0 q a b) = true := by
  cases q using Reg.byDigit
  case hC => simp [decode0, unassigned, usedDigits, byteOf, decodeMemB_eq_none_iff]
  case hD => cases b using Reg.byDigit <;> simp [decode0, decodeMemW, unassigned, usedDigits, byteOf]
  all_goals simp [decode0, decodeAlu, unassigned, usedDigits, byteOf]

theorem decode1_eq_none_iff : decode1 q a b x y = none ↔ unassigned (join 0x1 q a b) = true := by
  cases q using Reg.byDigit <;> simp [decode1, unassigned, usedDigits, byteOf, decodeLdm_eq_none_iff]

theorem decode2_eq_none_iff : decode2 q a b x = none ↔ unassigned (join 0x2 q a b) = true := by
  cases q using Reg.byDigit <;> simp [decode2, unassigned, usedDigits, byteOf, decodeBit_ne_none]

theorem decode3_eq_none_iff : decode3 q a b x = none ↔ unassigned (join 0x3 q a b) = true := by
  cases q using Reg.byDigit
  case hA => simp [decode3, unassigned, usedDigits, byteOf, decode3A_eq_none_iff]
  case hB => simp [decode3, unassigned, usedDigits, byteOf, decode3B_eq_none_iff]
  all_goals simp [decode3, unassigned, usedDigits, byteOf, ite_some_ne_none]

theorem decode4_eq_none_iff : decode4 q a b x y = none ↔ unassigned (join 0x4 q a b) = true := by
  cases q using Reg.byDigit
  case hC => simp [decode4, unassigned, usedDigits, byteOf, decodeMemB_eq_none_iff]
  case hD => simp [decode4, unassigned, usedDigits, byteOf, decodeMemW_eq_none_iff]
  all_goals simp [decode4, decodeAlu, unassigned, usedDigits, byteOf]

theorem decode5_eq_none_iff : decode5 q a b x y = none ↔ unassigned (join 0x5 q a b) = true := by
  cases q using Reg.byDigit <;> simp [decode5, unassigned, usedDigits, byteOf, decodeLdm_eq_none_iff]

theorem decode6_eq_none_iff : decode6 q a b x = none ↔ unassigned (join 0x6 q a b) = true := by
  cases q using Reg.byDigit <;> simp [decode6, unassigned, usedDigits, byteOf]

theorem decode7_eq_none_iff : decode7 q a b x = none ↔ unassigned (join 0x7 q a b) = true := by
  cases q using Reg.byDigit
  case hA => simp [decode7, unassigned, usedDigits, byteOf, append_eq_zero_iff]
  case hB => simp [decode7, unassigned, usedDigits, byteOf, decode7B_eq_none_iff]
  case hC => simp [decode7, unassigned, usedDigits, byteOf, decode7C_eq_none_iff]
  case hD => simp [decode7, unassigned, usedDigits, byteOf, decodeCtl_eq_none_iff]
  all_goals simp [decode7, unassigned, usedDigits, byteOf, ite_some_ne_none]

theorem decode8_eq_none_iff : decode8 q a b = none ↔ unassigned (join 0x8 q a b) = true := by
  cases q using Reg.byDigit
  case hC | hD => cases b using Reg.byDigit <;> simp [decode8, unassigned, usedDigits, byteOf]
  all_goals simp [decode8, decodeAlu, unassigned, usedDigits, byteOf]

theorem decode9_eq_none_iff : decode9 q a b = none ↔ unassigned (join 0x9 q a b) = true := by
  cases q using Reg.byDigit <;> simp [decode9, unassigned, usedDigits, byteOf]

theorem decodeA_eq_none_iff : decodeA q a b = none ↔ unassigned (join 0xA q a b) = true := by
  cases q using Reg.byDigit <;> simp [decodeA, unassigned, usedDigits, byteOf]

theorem decodeB_eq_none_iff : decodeB q a b x = none ↔ unassigned (join 0xB q a b) = true := by
  cases q using Reg.byDigit
  case h1 => cases b using Reg.byDigit <;> simp [decodeB, unassigned, usedDigits, byteOf]
  case h2 => simp [decodeB, unassigned, usedDigits, byteOf, decodeB2_eq_none_iff]
  case h3 => simp [decodeB, unassigned, usedDigits, byteOf, decodeB3_ne_none]
  case h8 => simp [decodeB, unassigned, usedDigits, byteOf, decodeB8_eq_none_iff]
  case hA => simp [decodeB, unassigned, usedDigits, byteOf, decodeBA_eq_none_iff]
  case hB => simp [decodeB, unassigned, usedDigits, byteOf, decodeBB_eq_none_iff]
  all_goals simp [decodeB, unassigned, usedDigits, byteOf]

end

theorem decodeDigits_eq_none_iff (p q a b : Reg) (x y : Word) :
    decodeDigits p q a b x y = none ↔ unassigned (join p q a b) = true := by
  cases p using Reg.byDigit
  case h0 => exact decode0_eq_none_iff q a b x
  case h1 => exact decode1_eq_none_iff q a b x y
  case h2 => exact decode2_eq_none_iff q a b x
  case h3 => exact decode3_eq_none_iff q a b x
  case h4 => exact decode4_eq_none_iff q a b x y
  case h5 => exact decode5_eq_none_iff q a b x y
  case h6 => exact decode6_eq_none_iff q a b x
  case h7 => exact decode7_eq_none_iff q a b x
  case h8 => exact decode8_eq_none_iff q a b
  case h9 => exact decode9_eq_none_iff q a b
  case hA => exact decodeA_eq_none_iff q a b
  case hB => exact decodeB_eq_none_iff q a b x
  all_goals cases q using Reg.byDigit <;> simp [decodeDigits, unassigned, usedDigits, byteOf]

/-- A first word is rejected exactly when no row of the table matches it, whatever follows (R127). -/
theorem decodeWords_eq_none_iff (w x y : Word) : decodeWords w x y = none ↔ unassigned w = true := by
  conv_rhs => rw [← w.join_digits]
  exact decodeDigits_eq_none_iff ..

end Sys2Proof
end

section
/-! PROOFS of the statements about `30_encoding.md`: which bits of a second word the decoder reads (R121, R122). -/
namespace Sys2Proof
open Machine (secondWordFields slice_slice)

theorem Word.digit3_eq_hi (w : Word) : w.digit3 = Byte.digit1 w.hi := (slice_slice w 8 8 4 4 (by decide)).symm

theorem Word.digit2_eq_hi (w : Word) : w.digit2 = Byte.digit0 w.hi := (slice_slice w 8 8 0 4 (by decide)).symm

/-- The decoder on a word of which the first byte is known. -/
theorem decodeWords_of_hi {w : Word} {h : Byte} (hw : w.hi = h) (x y : Word) :
    decodeWords w x y = decodeDigits (Byte.digit1 h) (Byte.digit0 h) w.digit1 w.digit0 x y := by
  rw [decodeWords, Word.digit3_eq_hi, Word.digit2_eq_hi, hw]

/-! ## The fields of a second word (R121, R122) -/

section
variable (v m : Word)

theorem Word.digit2_and : (v &&& m).digit2 = v.digit2 &&& m.digit2 := by
  apply BitVec.eq_of_getLsbD_eq
  simp +contextual [Word.digit2]

theorem Word.digit1_and : (v &&& m).digit1 = v.digit1 &&& m.digit1 := by
  apply BitVec.eq_of_getLsbD_eq
  simp +contextual [Word.digit1]

theorem Word.digit0_and : (v &&& m).digit0 = v.digit0 &&& m.digit0 := by
  apply BitVec.eq_of_getLsbD_eq
  simp +contextual [Word.digit0]

end

/-- The field of BX, DYN and SHD. -/
theorem Word.digit2_field (v : Word) : (v &&& 0x0F00).digit2 = v.digit2 := by
  rw [Word.digit2_and]
  exact BitVec.and_allOnes

/-- The fields of LDM. -/
theorem Word.ldm_fields (v : Word) : (v &&& 0x0F0F).digit2 = v.digit2 ∧ (v &&& 0x0F0F).digit0 = v.digit0 := by
  rw [Word.digit2_and, Word.digit0_and]
  exact ⟨BitVec.and_allOnes, BitVec.and_allOnes⟩

/-- The fields of the block instructions. -/
theorem Word.block_fields (v : Word) : (v &&& 0x0FFF).digit2 = v.digit2 ∧ (v &&& 0x0FFF).digit1 = v.digit1 ∧
    (v &&& 0x0FFF).digit0 = v.digit0 := by
  rw [Word.digit2_and, Word.digit1_and, Word.digit0_and]
  exact ⟨BitVec.and_allOnes, BitVec.and_allOnes, BitVec.and_allOnes⟩

section
variable (q a b : Reg) {v v' : Word}

theorem decode7_congr (hq : q ∈ [0x0, 0x1, 0x2, 0x3, 0x4, 0x5, 0x7]) (h2 : v.digit2 = v'.digit2) :
    decode7 q a b v = decode7 q a b v' := by
  simp only [List.mem_cons, List.not_mem_nil, or_false] at hq
  rcases hq with rfl | rfl | rfl | rfl | rfl | rfl | rfl <;> simp [decode7, h2]

theorem decode2_congr (hq : q ∈ [0x2, 0x3, 0x4, 0x5, 0x6, 0x7]) (h2 : v.digit2 = v'.digit2) :
    decode2 q 0 b v = decode2 q 0 b v' := by
  simp only [List.mem_cons, List.not_mem_nil, or_false] at hq
  rcases hq with rfl | rfl | rfl | rfl | rfl | rfl <;> simp [decode2, decodeBit, h2]

theorem decodeB2_congr (hb : b ∈ [0x3, 0x7, 0xB, 0xF]) (h2 : v.digit2 = v'.digit2) :
    decodeB2 a b v = decodeB2 a b v' := by
  simp only [List.mem_cons, List.not_mem_nil, or_false] at hb
  rcases hb with rfl | rfl | rfl | rfl <;> simp [decodeB2, h2]

theorem decodeB3_congr (hb : b ∈ [0x3, 0x7, 0xB, 0xF]) (h2 : v.digit2 = v'.digit2) :
    decodeB3 a b v = decodeB3 a b v' := by
  simp only [List.mem_cons, List.not_mem_nil, or_false] at hb
  rcases hb with rfl | rfl | rfl | rfl <;> simp [decodeB3, h2]

/-- The operand of TESTL is not an operand of LDM. -/
theorem decodeLdm_congr (m n n' : MemOp) (hb : b ∈ [0x1, 0x9]) (h2 : v.digit2 = v'.digit2) (h0 : v.digit0 = v'.digit0) :
    decodeLdm m n b v = decodeLdm m n' b v' := by
  simp only [List.mem_cons, List.not_mem_nil, or_false] at hb
  rcases hb with rfl | rfl <;> simp [decodeLdm, h2, h0]

theorem decodeB8_congr (h2 : v.digit2 = v'.digit2) (h1 : v.digit1 = v'.digit1) : decodeB8 a b v = decodeB8 a b v' := by
  simp only [decodeB8, h2, h1]

section
variable (h2 : v.digit2 = v'.digit2) (h1 : v.digit1 = v'.digit1) (h0 : v.digit0 = v'.digit0)
include h2 h1 h0

theorem decodeRep_congr : decodeRep v = decodeRep v' := by
  funext a one rep
  simp only [decodeRep, Word.getLsbD_three, h2, h1, h0]

theorem decodeCmp_congr : decodeCmp v = decodeCmp v' := by
  funext a f
  simp only [decodeCmp, h2, h1, h0]

theorem decodeBA_congr : decodeBA a b v = decodeBA a b v' := by
  simp only [decodeBA, decodeRep_congr h2 h1 h0, decodeCmp_congr h2 h1 h0]

theorem decodeBB_congr : decodeBB a b v = decodeBB a b v' := by
  simp only [decodeBB, decodeRep_congr h2 h1 h0, decodeCmp_congr h2 h1 h0]

theorem decode3A_congr (hb : b ∉ [0x4, 0x5, 0x6, 0x7]) : decode3A a b v = decode3A a b v' := by
  have rep := decodeRep_congr h2 h1 h0
  unfold decode3A
  split <;> simp_all

theorem decode3B_congr (hb : b ∉ [0x4, 0x5, 0x6, 0x7]) : decode3B a b v = decode3B a b v' := by
  have rep := decodeRep_congr h2 h1 h0
  unfold decode3B
  split <;> simp_all

end
end

/-! ### By first byte -/

section
variable {w v v' : Word} (y : Word) (h2 : v.digit2 = v'.digit2)
include h2

theorem decodeWords_congr_bx (hi : w.hi ∈ [0x70, 0x71, 0x72, 0x73, 0x74, 0x75, 0x77]) :
    decodeWords w v y = decodeWords w v' y := by
  have digits : ∀ k : Byte, k ∈ [0x70, 0x71, 0x72, 0x73, 0x74, 0x75, 0x77] →
      Byte.digit1 k = 0x7 ∧ Byte.digit0 k ∈ [0x0, 0x1, 0x2, 0x3, 0x4, 0x5, 0x7] := by decide
  obtain ⟨page, hq⟩ := digits _ hi
  rw [decodeWords_of_hi rfl, decodeWords_of_hi rfl, page]
  exact decode7_congr _ _ _ hq h2

theorem decodeWords_congr_dyn (hi : w.hi ∈ [0x22, 0x23, 0x24, 0x25, 0x26, 0x27]) (dyn : w.digit1 = 0) :
    decodeWords w v y = decodeWords w v' y := by
  have digits : ∀ k : Byte, k ∈ [0x22, 0x23, 0x24, 0x25, 0x26, 0x27] →
      Byte.digit1 k = 0x2 ∧ Byte.digit0 k ∈ [0x2, 0x3, 0x4, 0x5, 0x6, 0x7] := by decide
  obtain ⟨page, hq⟩ := digits _ hi
  rw [decodeWords_of_hi rfl, decodeWords_of_hi rfl, page, dyn]
  exact decode2_congr _ _ hq h2

theorem decodeWords_congr_shd (hi : w.hi ∈ [0xB2, 0xB3]) (shd : w.digit0 ∈ [0x3, 0x7, 0xB, 0xF]) :
    decodeWords w v y = decodeWords w v' y := by
  simp only [List.mem_cons, List.not_mem_nil, or_false] at hi
  rcases hi with hi | hi <;> rw [decodeWords_of_hi hi, decodeWords_of_hi hi]
  · exact decodeB2_congr _ _ shd h2
  · exact decodeB3_congr _ _ shd h2

theorem decodeWords_congr_ldm (h0 : v.digit0 = v'.digit0) (hi : w.hi ∈ [0x1C, 0x5C]) (ldm : w.digit0 ∈ [0x1, 0x9]) :
    decodeWords w v y = decodeWords w v' y := by
  simp only [List.mem_cons, List.not_mem_nil, or_false] at hi
  rcases hi with hi | hi <;> rw [decodeWords_of_hi hi, decodeWords_of_hi hi]
  · exact decodeLdm_congr _ _ _ _ ldm h2 h0
  · exact decodeLdm_congr _ _ _ _ ldm h2 h0

theorem decodeWords_congr_block (h1 : v.digit1 = v'.digit1) (h0 : v.digit0 = v'.digit0)
    (hi : w.hi ∈ [0xB8, 0xBA, 0xBB] ∨ w.hi ∈ [0x3A, 0x3B] ∧ w.digit0 ∉ [0x4, 0x5, 0x6, 0x7]) :
    decodeWords w v y = decodeWords w v' y := by
  simp only [List.mem_cons, List.not_mem_nil, or_false] at hi
  rcases hi with (hi | hi | hi) | ⟨hi | hi, io⟩ <;> rw [decodeWords_of_hi hi, decodeWords_of_hi hi]
  · exact decodeB8_congr _ _ h2 h1
  · exact decodeBA_congr _ _ h2 h1 h0
  · exact decodeBB_congr _ _ h2 h1 h0
  · exact decode3A_congr _ _ h2 h1 h0 (by simpa using io)
  · exact decode3B_congr _ _ h2 h1 h0 (by simpa using io)

end

/-- Settles O3: for each format of R121 with fixed bits, the decoder reads the second word through digits that the mask
keeps. -/
theorem uncheckedSecondWordBitsAreIgnored : Obligations.UncheckedSecondWordBitsAreIgnored := by
  intro w1 w2 w3 fields h
  unfold secondWordFields at h
  split at h
  · next bx =>
    cases h
    exact decodeWords_congr_bx w3 w2.digit2_field.symm bx
  split at h
  · next dyn =>
    cases h
    exact decodeWords_congr_dyn w3 w2.digit2_field.symm dyn.1 dyn.2
  split at h
  · next shd =>
    cases h
    exact decodeWords_congr_shd w3 w2.digit2_field.symm shd.1 shd.2
  split at h
  · next ldm =>
    cases h
    obtain ⟨h2, h0⟩ := w2.ldm_fields
    exact decodeWords_congr_ldm w3 h2.symm h0.symm ldm.1 ldm.2
  split at h
  · next block =>
    cases h
    obtain ⟨h2, h1, h0⟩ := w2.block_fields
    exact decodeWords_congr_block w3 h2.symm h1.symm h0.symm block
  · cases h

end Sys2Proof
end

section
/-! PROOFS of the statements about `30_encoding.md`: decode errors and rejected words trap (R116, R118, R127), operands
(R115) and condition codes (R125). -/
namespace Sys2Proof.Machine

/-! ## Decode errors (R116, R118, R127; `60_exceptions.md` R603, R613) -/

variable (s : State)

/-- The entry of the extended-instruction trap, with its vector and no latch changed. -/
theorem State.entersExtendedTrap :
    s.Entered (s.takeTrap .ext) (s.psap + 0x06) (s.psap + 0x08) none ∧ s.SameLatches (s.takeTrap .ext) := by
  have fcwAt : s.vectorFcwAddr .ext = s.psap + 0x06 := by simp [State.vectorFcwAddr, Trap.number, BitVec.add_assoc]
  have pcAt : s.vectorPcAddr .ext = s.psap + 0x08 := by simp [State.vectorPcAddr, Trap.number, BitVec.add_assoc]
  obtain ⟨nmi, vi, nvi⟩ := s.latches_takeTrap .ext
  exact ⟨fcwAt ▸ pcAt ▸ s.entered_takeTrap .ext, nvi.trans (Bool.and_true _), vi.trans (Bool.and_true _),
    nmi.trans (Bool.and_true _)⟩

variable {s} in
theorem takesExtendedTrap_of_exec {i : Instr} (h : exec i s = .next (s.takeTrap .ext)) : TakesExtendedTrap i s :=
  ⟨_, h, s.entersExtendedTrap⟩

/-- The decode check comes first: where it fails, nothing of the instruction's effect happens. -/
theorem State.checked_of_not_wf {legal wf : Bool} (hl : legal = wf) (hw : wf = false) (k : Result) :
    s.checked legal k = .next (s.takeTrap .ext) := by
  rw [hl, hw, s.checked_false]

theorem sizeOk_and_stDst (z : Size) (r : Reg) (dst : StDst) :
    (sizeOk z r && StDst.legal dst) = (dst.wf && z.regWf r) := by
  rw [sizeOk_eq_regWf, StDst.legal_eq_wf, Bool.and_comm]

theorem pointerOk_and_src {z : Size} (r : Reg) (src : Src z) :
    (pointerOk r && Src.legal src) = (ptrReg r && src.wf) := by
  rw [pointerOk_eq_ptrReg, Src.legal_eq_wf]

/-- Every constructor with a field to check checks it before the mode and before its effect (R613). -/
theorem exec_of_not_wf {i : Instr} (hw : i.wf = false) : exec i s = .next (s.takeTrap .ext) := by
  cases i with
  | ld d src | ldb d src | ldl d src => exact s.checked_of_not_wf (sizeOk_and_ldSrc d src) hw _
  | ldSt dst r | ldbSt dst r => exact s.checked_of_not_wf (StDst.legal_eq_wf dst) hw _
  | ldlSt dst r => exact s.checked_of_not_wf (sizeOk_and_stDst .l r dst) hw _
  | ldImm m _ | ldbImm m _ | ldm _ m _ | ldmSt m _ _ | cpImm m _ | cpbImm m _ | jp _ m | call m | ldps m =>
    exact s.checked_of_not_wf (MemOp.legal_eq_wf m) hw _
  | ldrl r _ | ldrlSt _ r | slalSral r _ | slllSrll r _ | sdal r _ | sdll r _ =>
    exact s.checked_of_not_wf (sizeOk_eq_regWf .l r) hw _
  | exts d => exact s.checked_of_not_wf (evenOk_eq_longReg d) hw _
  | extsl d => exact s.checked_of_not_wf (quadOk_eq_quadReg d) hw _
  | lda _ src => exact s.checked_of_not_wf (LaSrc.legal_eq_wf src) hw _
  | clr o | ex _ o | inc o _ | dec o _ | neg o | com o | test o | bit o _ | set o _ | res o _ | tset o =>
    exact s.checked_of_not_wf (RegMem.legal_eq_wf .w o) hw _
  | clrb o | exb _ o | incb o _ | decb o _ | negb o | comb o | testb o | bitb o _ | setb o _ | resb o _ | tsetb o =>
    exact s.checked_of_not_wf (RegMem.legal_eq_wf .b o) hw _
  | testl o => exact s.checked_of_not_wf (RegMem.legal_eq_wf .l o) hw _
  | push d src => exact s.checked_of_not_wf (pointerOk_and_src d src) hw _
  | pop o r => exact s.checked_of_not_wf (pointerOk_and_operand .w r o) hw _
  | pushl r o | popl o r => exact s.checked_of_not_wf (pointerOk_and_operand .l r o) hw _
  | add _ src | addb _ src | sub _ src | subb _ src | and _ src | andb _ src | or _ src | orb _ src | xor _ src
  | xorb _ src | cp _ src | cpb _ src => exact s.checked_of_not_wf (Src.legal_eq_wf src) hw _
  | addl d src | subl d src | cpl d src | mult d src | div d src =>
    exact s.checked_of_not_wf (evenOk_and_src d src) hw _
  | multl d src | divl d src => exact s.checked_of_not_wf (quadOk_and_src d src) hw _
  | inInd _ r | inbInd _ r | outInd r _ | outbInd r _ => exact s.checked_of_not_wf (pointerOk_eq_ptrReg r) hw _
  | cpi _ r _ _ | cpir _ r _ _ | cpd _ r _ _ | cpdr _ r _ _ | cpib _ r _ _ | cpirb _ r _ _ | cpdb _ r _ _
  | cpdrb _ r _ _ => exact s.checked_of_not_wf (pointerOk_eq_ptrReg r) hw _
  | ldi | ldir | ldd | lddr | ldib | ldirb | lddb | lddrb | cpsi | cpsir | cpsd | cpsdr | cpsib | cpsirb | cpsdb
  | cpsdrb | trib | trirb | trdb | trdrb | trtib | trtirb | trtdb | trtdrb | ini | inir | ind | indr | inib | inirb
  | indb | indrb | sini | sinir | sind | sindr | sinib | sinirb | sindb | sindrb | outi | otir | outd | otdr | outib
  | otirb | outdb | otdrb | souti | sotir | soutd | sotdr | soutib | sotirb | soutdb | sotdrb =>
    exact s.checked_of_not_wf rfl hw _
  | _ => cases hw

/-- Settles O49: the decode check of every meaning is well-formedness (`exec_of_not_wf`), and an EPU word checks EPA
before all else; the mode is not asked. -/
theorem decodeErrorsTrap : Obligations.DecodeErrorsTrap := by
  refine ⟨fun i s hw => takesExtendedTrap_of_exec (exec_of_not_wf s hw), fun page op s epa => ?_⟩
  apply takesExtendedTrap_of_exec
  show (if s.epa then _ else _) = _
  rw [if_neg (by simp [epa])]

/-- A rejected word takes the trap with the PC after that word. -/
theorem runInstr_of_unassigned {s : State} (hw : s.NotResetWord)
    (hd : decodeWords (s.readWord .prog s.pc) (s.readWord .prog (s.pc + 2)) (s.readWord .prog (s.pc + 4)) = none) :
    runInstr s = .next ((s.setPc (s.pc + 2)).takeTrap .ext) := by
  have rejected : decode (bytesOf s.fetchWords) = .rejected .unassigned := decode_of_unassigned hd
  rw [runInstr, isResetWord_of_notResetWord hw, rejected]
  rfl

/-- Settles O5: the rejected first words are the table's unassigned ones (`decodeWords_eq_none_iff`), and a step at one
is the extended-instruction trap from the state with the PC after that word, then the tick. -/
theorem unassignedWordsTrap : Obligations.UnassignedWordsTrap := by
  refine ⟨decodeWords_eq_none_iff, fun s ha hh hw hd => ?_⟩
  obtain ⟨entered, nvi, vi, nmi⟩ := (s.setPc (s.pc + 2)).entersExtendedTrap
  refine ⟨(s.setPc (s.pc + 2)).takeTrap .ext, ?_, entered, nvi, vi, nmi⟩
  rw [step_of_running ha hh, runInstr_of_unassigned hw hd]
  rfl

/-! ## Operands and condition codes (R115, R125) -/

/-- Settles O10: each clause is one arm of the function it speaks of. -/
theorem effectiveAddresses : Obligations.EffectiveAddresses := by
  intro s a x n addr disp m o kb kw kl
  exact ⟨⟨rfl, rfl, rfl, rfl, rfl, rfl⟩, ⟨rfl, rfl, rfl, rfl, rfl⟩, ⟨rfl, rfl, rfl⟩, ⟨rfl, rfl, rfl⟩, ⟨rfl, rfl, rfl⟩,
    fun _ _ => rfl, ⟨rfl, rfl, rfl⟩, ⟨rfl, rfl, rfl⟩, ⟨rfl, rfl, rfl⟩, fun _ => ⟨rfl, rfl⟩⟩

/-- Settles O11: each 4-bit code names the condition that `Cc.test` writes as its formula. -/
theorem conditionCodes : Obligations.ConditionCodes := by
  intro s c z g v
  exact ⟨rfl, rfl, rfl, rfl, rfl, rfl, rfl, rfl, rfl, rfl, rfl, rfl, rfl, rfl, rfl, rfl⟩

end Sys2Proof.Machine
end

section
/-! PROOFS of the statements about `40_data_movement.md`: loads, stores, clear and exchange, push and pop (R200 to R227). -/
namespace Sys2Proof.Machine

section
variable (s : State)

/-! ## What the shared operations answer and leave -/

/-- The decode check passes where the fields are well-formed. -/
theorem State.checked_of_wf {legal wf : Bool} (hl : legal = wf) (hw : wf = true) (k : Result) : s.checked legal k = k := by
  rw [hl, hw, s.checked_true]

/-- A register holds the value written to it, and nothing else changes. -/
theorem State.setReg_writes (z : Size) (d : Reg) (v : z.Val) :
    (s.setReg z d v).reg z d = v ∧ s.Straight (s.setReg z d v) (destRegs z d) [] .data [] :=
  ⟨s.reg_setReg_same z d v, s.straight_setReg z d v .data⟩

/-- A byte register holds the value written to it, and nothing else changes, the other byte of its word included. -/
theorem State.setRb_writes (d : Reg) (v : Byte) :
    (s.setRb d v).rb d = v ∧ s.Straight (s.setRb d v) [byteHome d] [] .data [] ∧
      ∀ n, n ≠ d → (s.setRb d v).rb n = s.rb n :=
  ⟨s.rb_setRb_same d v, s.straight_setRb d v .data, fun n hn => by rw [State.rb_setRb, if_neg hn]⟩

/-- An address of DATA holds the value stored there, and nothing else changes. -/
theorem State.memWrite_writes (z : Size) (a : Word) (v : z.Val) :
    (s.memWrite .data z a v).memRead .data z a = v ∧
      s.Straight (s.memWrite .data z a v) [] [] .data (accessBytes s.cfg z a) :=
  ⟨s.memRead_memWrite_same .data z a v, s.straight_memWrite .data z a v⟩

/-- An operand holds the value stored in it, and nothing else changes. -/
theorem RegMem.store_writes (z : Size) (v : z.Val) (dst : RegMem) :
    RegMem.after s (RegMem.store s z v dst) z dst = v ∧
      s.Straight (RegMem.store s z v dst) (RegMem.regs z dst) [] .data (RegMem.bytes s z dst) :=
  ⟨RegMem.after_store s z v dst, s.straight_store z v dst⟩

/-- Byte registers with different numbers do not overlap, nor do word registers; long registers can. -/
theorem State.reg_setReg_of_ne {z : Size} (hz : z ≠ .l) {n m : Reg} (h : m ≠ n) (v : z.Val) :
    (s.setReg z n v).reg z m = s.reg z m := by
  cases z with
  | b => exact (s.rb_setRb n m v).trans (if_neg h)
  | w => exact s.rw_setRw_of_ne h v
  | l => exact absurd rfl hz

theorem RegMem.reg_store_of_ne {z : Size} (hz : z ≠ .l) {dst : RegMem} {n : Reg} (h : dst ≠ .reg n) (v : z.Val) :
    (RegMem.store s z v dst).reg z n = s.reg z n := by
  cases dst with
  | reg d => exact s.reg_setReg_of_ne hz (fun e => h (congrArg RegMem.reg e.symm)) v
  | mem m => exact State.reg_congr _ _ (s.rw_memWrite .data z _ v) z n

/-! ## Exchange (R222, R223) -/

/-- The state after an exchange. -/
def exchanged (z : Size) (d : Reg) (src : RegMem) : State :=
  (RegMem.store s z (s.reg z d) src).setReg z d (RegMem.value s z src)

theorem exchange_of_wf {z : Size} {src : RegMem} (hw : src.wf z = true) (d : Reg) :
    exchange z d src s = .next (exchanged s z d src) :=
  s.checked_of_wf (RegMem.legal_eq_wf z src) hw _

/-- Writing the register last keeps what was stored in the operand; an operand that is the register itself exchanges
equal values. -/
theorem after_exchanged {z : Size} (hz : z ≠ .l) (d : Reg) (src : RegMem) :
    RegMem.after s (exchanged s z d src) z src = s.reg z d := by
  cases src with
  | mem m => exact (State.memRead_setReg _ z d _ .data z _).trans (s.memRead_memWrite_same .data z _ _)
  | reg n =>
    by_cases h : n = d
    · subst h
      exact State.reg_setReg_same _ z n _
    · exact (State.reg_setReg_of_ne _ hz h _).trans (s.reg_setReg_same z n _)

theorem exchanged_writes {z : Size} (hz : z ≠ .l) (d : Reg) (src : RegMem) :
    (exchanged s z d src).reg z d = RegMem.value s z src ∧
      RegMem.after s (exchanged s z d src) z src = s.reg z d ∧
      s.Straight (exchanged s z d src) (destRegs z d ++ RegMem.regs z src) [] .data (RegMem.bytes s z src) :=
  ⟨State.reg_setReg_same _ z d _, after_exchanged s hz d src,
    ((s.straight_store z _ src).trans (State.straight_setReg _ z d _ .data)).mono
      (fun _ h => List.mem_append.2 (List.mem_append.1 h).symm) (by simp) (by simp)⟩

theorem reg_exchanged_of_ne {z : Size} (hz : z ≠ .l) {d n : Reg} {src : RegMem} (hd : n ≠ d) (hs : src ≠ .reg n) :
    (exchanged s z d src).reg z n = s.reg z n :=
  (State.reg_setReg_of_ne _ hz hd _).trans (RegMem.reg_store_of_ne s hz hs _)

/-! ## Push and pop (R224 to R227) -/

theorem State.push_writes (r : Reg) (z : Size) (v : z.Val) :
    (s.push r z v).rw r = s.rw r - z.bytes ∧ (s.push r z v).memRead .prog z (s.rw r - z.bytes) = v ∧
      s.Straight (s.push r z v) [r] [] .prog (accessBytes s.cfg z (s.rw r - z.bytes)) :=
  ⟨s.rw_push_same r z v, s.memRead_push r z v, s.straight_push r z v⟩

/-- The state after a pop to an operand. -/
def poppedTo (z : Size) (dst : RegMem) (r : Reg) : State := RegMem.store (s.popped r z) z (s.popValue r z) dst

theorem popTo_of_wf {z : Size} {dst : RegMem} {r : Reg} (hw : (ptrReg r && dst.wf z) = true) :
    popTo z dst r s = .next (poppedTo s z dst r) :=
  s.checked_of_wf (pointerOk_and_operand z r dst) hw _

theorem poppedTo_writes (z : Size) (dst : RegMem) (r : Reg) :
    RegMem.after (s.popped r z) (poppedTo s z dst r) z dst = s.memRead .prog z (s.rw r) ∧
      (r ∉ RegMem.regs z dst → (poppedTo s z dst r).rw r = s.rw r + z.bytes) ∧
      s.Straight (poppedTo s z dst r) (r :: RegMem.regs z dst) [] .data (RegMem.bytes (s.popped r z) z dst) := by
  obtain ⟨value, frame⟩ := RegMem.store_writes (s.popped r z) z (s.popValue r z) dst
  exact ⟨value, fun h => (frame.regs r h).trans (s.rw_setRw_same r _), (s.straight_popped r z .data).trans frame⟩

end

/-! ## The statements -/

/-- Settles O12: each form is the check and one register write. -/
theorem loadsWriteTheRegister : Obligations.LoadsWriteTheRegister :=
  ⟨fun s d src hw => ⟨_, s.checked_of_wf (sizeOk_and_ldSrc d src) hw _, s.setReg_writes .w d (LdSrc.value s src)⟩,
    fun s d src hw => ⟨_, s.checked_of_wf (sizeOk_and_ldSrc d src) hw _, s.setRb_writes d (LdSrc.value s src)⟩,
    fun s d k => ⟨_, rfl, s.setRb_writes d k⟩,
    fun s d src hw => ⟨_, s.checked_of_wf (sizeOk_and_ldSrc d src) hw _, s.setReg_writes .l d (LdSrc.value s src)⟩⟩

/-- Settles O13: each form is one register write, checked where the register is long or the operand has a base. -/
theorem relativeAndConstantLoads : Obligations.RelativeAndConstantLoads := by
  refine ⟨fun s d disp => ⟨_, rfl, s.setReg_writes .w d (s.readWord .data (s.pc + disp))⟩,
    fun s d disp => ⟨_, rfl, s.setRb_writes d (s.readByte .data (s.pc + disp))⟩,
    fun s d disp hw =>
      ⟨_, s.checked_of_wf (sizeOk_eq_regWf .l d) hw _, s.setReg_writes .l d (s.readLong .data (s.pc + disp))⟩,
    fun s d src hw => ⟨_, s.checked_of_wf (LaSrc.legal_eq_wf src) hw _, s.setReg_writes .w d (LaSrc.ea s src)⟩,
    fun s d disp => ⟨_, rfl, s.setReg_writes .w d (s.pc + disp)⟩,
    fun s d n => ⟨_, rfl, ?_, s.straight_setRw d (n.zeroExtend 16) .data⟩⟩
  rw [s.rw_setRw_same]
  exact BitVec.toNat_setWidth_of_le (by decide)

/-- Settles O14: each form is the check and one memory write at the address of its operand. -/
theorem storesWriteOnlyTheirBytes : Obligations.StoresWriteOnlyTheirBytes :=
  ⟨fun s dst r hw => ⟨_, s.checked_of_wf (StDst.legal_eq_wf dst) hw _, s.memWrite_writes .w (StDst.ea s dst) (s.rw r)⟩,
    fun s dst r hw => ⟨_, s.checked_of_wf (StDst.legal_eq_wf dst) hw _, s.memWrite_writes .b (StDst.ea s dst) (s.rb r)⟩,
    fun s dst r hw =>
      ⟨_, s.checked_of_wf (sizeOk_and_stDst .l r dst) hw _, s.memWrite_writes .l (StDst.ea s dst) (s.rr r)⟩,
    fun s dst k hw => ⟨_, s.checked_of_wf (MemOp.legal_eq_wf dst) hw _, s.memWrite_writes .w (MemOp.ea s dst) k⟩,
    fun s dst k hw => ⟨_, s.checked_of_wf (MemOp.legal_eq_wf dst) hw _, s.memWrite_writes .b (MemOp.ea s dst) k⟩,
    fun s disp r => ⟨_, rfl, s.memWrite_writes .w (s.pc + disp) (s.rw r)⟩,
    fun s disp r => ⟨_, rfl, s.memWrite_writes .b (s.pc + disp) (s.rb r)⟩,
    fun s disp r hw => ⟨_, s.checked_of_wf (sizeOk_eq_regWf .l r) hw _, s.memWrite_writes .l (s.pc + disp) (s.rr r)⟩⟩

/-- Settles O15: the loops of LDM, of at most 16 words, so that no register is loaded twice and no two words overlap. -/
theorem loadAndStoreMultiple : Obligations.LoadAndStoreMultiple := by
  refine ⟨fun s d src n hw => ?_, fun s dst r n hw => ?_⟩
  · exact ⟨_, s.checked_of_wf (MemOp.legal_eq_wf src) hw _,
      fun k hk => rw_loadRegs s d _ (Nat.succ_le_of_lt n.isLt) (Nat.lt_succ_of_le hk), straight_loadRegs s d _ _⟩
  · exact ⟨_, s.checked_of_wf (MemOp.legal_eq_wf dst) hw _,
      fun k hk => readWord_storeRegs s r _ (Nat.succ_le_of_lt n.isLt) (Nat.lt_succ_of_le hk), straight_storeRegs s r _ _⟩

/-- Settles O16: a clear is one store of 0; an exchange stores the register in the operand and then writes the register
(`exchanged_writes`). -/
theorem clearAndExchange : Obligations.ClearAndExchange := by
  refine ⟨fun s dst hw => ?_, fun s dst hw => ?_, fun s d src hw => ?_, fun s d src hw => ?_⟩
  · exact ⟨_, s.checked_of_wf (RegMem.legal_eq_wf .w dst) hw _, RegMem.store_writes s .w 0 dst⟩
  · obtain ⟨value, frame⟩ := RegMem.store_writes s .b 0 dst
    exact ⟨_, s.checked_of_wf (RegMem.legal_eq_wf .b dst) hw _, value, frame,
      fun n hn => RegMem.reg_store_of_ne s (z := .b) (by decide) hn 0⟩
  · exact ⟨_, exchange_of_wf s hw d, exchanged_writes s (z := .w) (by decide) d src⟩
  · obtain ⟨register, operand, frame⟩ := exchanged_writes s (z := .b) (by decide) d src
    exact ⟨_, exchange_of_wf s hw d, register, operand, frame,
      fun n hd hs => reg_exchanged_of_ne s (z := .b) (by decide) hd hs⟩

/-- Settles O17: the source of a push is a value of the state before; the destination of a pop is written in the state
after the raise (`poppedTo`). -/
theorem pushAndPop : Obligations.PushAndPop :=
  ⟨fun s d src hw => ⟨_, s.checked_of_wf (pointerOk_and_src d src) hw _, s.push_writes d .w (Src.value s src)⟩,
    fun s d src hw => ⟨_, s.checked_of_wf (pointerOk_and_operand .l d src) hw _, s.push_writes d .l (RegMem.value s .l src)⟩,
    fun s dst r hw => ⟨_, popTo_of_wf s hw, poppedTo_writes s .w dst r⟩,
    fun s dst r hw => ⟨_, popTo_of_wf s hw, poppedTo_writes s .l dst r⟩⟩

end Sys2Proof.Machine
end

section
/-! PROOFS of the statements about `41_arithmetic.md`: sums, differences and comparisons, INC, DEC, NEG, COM, products, sign
extensions and decimal adjust (R260 to R288, R291 to R295). -/
namespace Sys2Proof.Machine

section
variable (s : State)

/-! ## A result, and then flags -/

/-- A register holds the result written before the flags. -/
theorem State.reg_setReg_setFlags (z : Size) (d : Reg) (v : z.Val) (f : FlagWrite) :
    ((s.setReg z d v).setFlags f).reg z d = v := by
  rw [State.reg_setFlags, State.reg_setReg_same]

/-- An operand holds the result stored before the flags. -/
theorem RegMem.after_store_setFlags (z : Size) (v : z.Val) (dst : RegMem) (f : FlagWrite) :
    RegMem.after s ((RegMem.store s z v dst).setFlags f) z dst = v := by
  rw [RegMem.after_setFlags, RegMem.after_store]

theorem RegMem.rb_store_setFlags_of_ne {dst : RegMem} (v : Byte) (f : FlagWrite) (n : Reg) (h : dst ≠ .reg n) :
    ((RegMem.store s .b v dst).setFlags f).rb n = s.rb n :=
  (State.reg_setFlags _ f .b n).trans (RegMem.reg_store_of_ne s (z := .b) (by decide) h v)

theorem State.rb_setRb_setFlags_same (d : Reg) (v : Byte) (f : FlagWrite) : ((s.setRb d v).setFlags f).rb d = v :=
  s.reg_setReg_setFlags .b d v f

theorem State.rb_setRb_setFlags_of_ne (d : Reg) (v : Byte) (f : FlagWrite) (n : Reg) (h : n ≠ d) :
    ((s.setRb d v).setFlags f).rb n = s.rb n :=
  RegMem.rb_store_setFlags_of_ne s (dst := .reg d) v f n (fun e => h (RegMem.reg.inj e).symm)

/-- H after a store and a flag write that names it under `doc` only (R263). -/
theorem RegMem.flagH_store_setFlags (z : Size) (v : z.Val) (dst : RegMem) {f : FlagWrite} {b : Bool}
    (hf : f.h = docOnly s.cfg.flags b) :
    ((RegMem.store s z v dst).setFlags f).flagH = if s.docFlags then b else s.flagH := by
  obtain ⟨-, -, -, -, -, keepsH⟩ := s.flags_store z v dst
  rw [State.flagH_setFlags, hf, docOnly_getD, keepsH]

/-- V after a store and a flag write that names it under `doc` only (R263). -/
theorem RegMem.flagV_store_setFlags (z : Size) (v : z.Val) (dst : RegMem) {f : FlagWrite} {b : Bool}
    (hf : f.v = docOnly s.cfg.flags b) :
    ((RegMem.store s z v dst).setFlags f).flagV = if s.docFlags then b else s.flagV := by
  obtain ⟨-, -, -, keepsV, -, -⟩ := s.flags_store z v dst
  rw [State.flagV_setFlags, hf, docOnly_getD, keepsV]

/-- A flag write that takes Z and S from a result. -/
theorem State.zeroSign_setFlags {w : Nat} (r : BitVec w) {f : FlagWrite} (hz : f.z = some (r == 0))
    (hs : f.s = some r.msb) : ZeroSign r (s.setFlags f) := by
  refine ⟨?_, ?_⟩
  · rw [State.flagZ_setFlags, hz]
    rfl
  · rw [State.flagS_setFlags, hs, BitVec.msb_eq_getLsbD_last]
    rfl

/-! ## The results of the flag unit (R260, R261) -/

/-- `t` shows the result `o`: the destination reads as `r` in it, and Z, S, V are those of `o`. -/
structure AluOut.Shown {w : Nat} (o : AluOut w) (r : BitVec w) (t : State) : Prop where
  result : r = o.r
  z : t.flagZ = o.z
  s : t.flagS = o.s
  v : t.flagV = o.v

theorem AluOut.Shown.isSum {w : Nat} {a b r : BitVec w} {cin : Bool} {t : State} (h : (addFlags a b cin).Shown r t) :
    IsSum a b cin r t := by
  rw [h.result]
  exact addFlags_isSum a b cin h.z h.s h.v

theorem AluOut.Shown.isDiff {w : Nat} {a b r : BitVec w} {bin : Bool} {t : State} (h : (subFlags a b bin).Shown r t) :
    IsDiff a b bin r t := by
  rw [h.result]
  exact subFlags_isDiff a b bin h.z h.s h.v

/-- A flag write that takes Z, S and V from a result shows it. -/
theorem AluOut.shown_setFlags {w : Nat} (o : AluOut w) {r : BitVec w} {f : FlagWrite} (hr : r = o.r) (hz : f.z = some o.z)
    (hs : f.s = some o.s) (hv : f.v = some o.v) : o.Shown r (s.setFlags f) where
  result := hr
  z := by rw [State.flagZ_setFlags, hz]; rfl
  s := by rw [State.flagS_setFlags, hs]; rfl
  v := by rw [State.flagV_setFlags, hv]; rfl

/-- The state after a word result: C, Z, S, V, and H under `doc` (R264). -/
def wordResult (d : Reg) (o : AluOut 16) : State := (s.setRw d o.r).setFlags (wordFlags s.cfg.flags o)

theorem wordResult_writes (d : Reg) (o : AluOut 16) :
    o.Shown ((wordResult s d o).rw d) (wordResult s d o) ∧ (wordResult s d o).flagC = o.c ∧
      ((wordResult s d o).flagH = if s.docFlags then o.h else s.flagH) ∧
      s.Straight (wordResult s d o) [d] [bitC, bitZ, bitS, bitV, bitH] .data [] :=
  ⟨o.shown_setFlags _ (s.reg_setReg_setFlags .w d o.r _) rfl rfl rfl, State.flagC_setFlags _ _,
    RegMem.flagH_store_setFlags s .w o.r (.reg d) rfl,
    (s.straight_setReg_setFlags .w d o.r _ .data).mono (fun _ h => h) (wordFlags_bits _ o) (fun _ h => h)⟩

/-- The state after a long result: C, Z, S, V (R266). -/
def longResult (d : Reg) (o : AluOut 32) : State := (s.setRr d o.r).setFlags (czsv s.cfg.flags o)

theorem longResult_writes (d : Reg) (o : AluOut 32) :
    o.Shown ((longResult s d o).rr d) (longResult s d o) ∧ (longResult s d o).flagC = o.c ∧
      s.Straight (longResult s d o) [d, d + 1] [bitC, bitZ, bitS, bitV] .data [] :=
  ⟨o.shown_setFlags _ (s.reg_setReg_setFlags .l d o.r _) rfl rfl rfl, State.flagC_setFlags _ _,
    s.straight_setReg_setFlags .l d o.r _ .data⟩

/-- The state after a byte result: C, Z, S, V, H, and in D the direction, 1 for a subtraction (R265, R270). -/
def byteResult (sub : Bool) (d : Reg) (o : AluOut 8) : State :=
  (s.setRb d o.r).setFlags { czsv s.cfg.flags o with h := some o.h, d := some sub }

theorem byteResult_writes (sub : Bool) (d : Reg) (o : AluOut 8) :
    o.Shown ((byteResult s sub d o).rb d) (byteResult s sub d o) ∧ (byteResult s sub d o).flagC = o.c ∧
      (byteResult s sub d o).flagH = o.h ∧ (byteResult s sub d o).flagD = sub ∧
      s.Straight (byteResult s sub d o) [byteHome d] [bitC, bitZ, bitS, bitV, bitD, bitH] .data [] ∧
      ∀ n, n ≠ d → (byteResult s sub d o).rb n = s.rb n :=
  ⟨o.shown_setFlags _ (s.reg_setReg_setFlags .b d o.r _) rfl rfl rfl, State.flagC_setFlags _ _, State.flagH_setFlags _ _,
    State.flagD_setFlags _ _, s.straight_setReg_setFlags .b d o.r _ .data, s.rb_setRb_setFlags_of_ne d o.r _⟩

/-- The state after a result of INC or DEC: Z, S, V, and H under `doc` (R279). -/
def stepResult (z : Size) (dst : RegMem) (o : AluOut z.bits) : State :=
  (RegMem.store s z o.r dst).setFlags (incFlags s.cfg.flags o)

theorem stepResult_writes (z : Size) (dst : RegMem) (o : AluOut z.bits) :
    o.Shown (RegMem.after s (stepResult s z dst o) z dst) (stepResult s z dst o) ∧
      ((stepResult s z dst o).flagH = if s.docFlags then o.h else s.flagH) ∧
      s.Straight (stepResult s z dst o) (RegMem.regs z dst) [bitZ, bitS, bitV, bitH] .data (RegMem.bytes s z dst) :=
  ⟨o.shown_setFlags _ (RegMem.after_store_setFlags s z o.r dst _) rfl rfl rfl,
    RegMem.flagH_store_setFlags s z o.r dst rfl,
    (s.straight_store_setFlags z o.r dst _).mono (fun _ h => h) (incFlags_bits _ o) (fun _ h => h)⟩

theorem compare_writes {w : Nat} (a b : BitVec w) :
    IsCompare a b (s.setFlags (czsv s.cfg.flags (subFlags a b false))) ∧
      s.Straight (s.setFlags (czsv s.cfg.flags (subFlags a b false))) [] [bitC, bitZ, bitS, bitV] .data [] :=
  ⟨compare_isCompare a b s _, s.straight_setFlags _ .data⟩

/-! ## Negation and complement (R283 to R286) -/

/-- The state after NEG. -/
def negated (z : Size) (dst : RegMem) : State :=
  (RegMem.store s z (-(RegMem.value s z dst)) dst).setFlags (negFlags (RegMem.value s z dst))

theorem negated_writes (z : Size) (dst : RegMem) :
    RegMem.after s (negated s z dst) z dst = 0 - RegMem.value s z dst ∧
      (negated s z dst).flagC = decide (RegMem.value s z dst ≠ 0) ∧
      (negated s z dst).flagV = decide (RegMem.value s z dst = BitVec.intMin z.bits) ∧
      ZeroSign (0 - RegMem.value s z dst) (negated s z dst) ∧
      s.Straight (negated s z dst) (RegMem.regs z dst) [bitC, bitZ, bitS, bitV] .data (RegMem.bytes s z dst) := by
  rw [zero_sub]
  refine ⟨RegMem.after_store_setFlags s z _ dst _, (State.flagC_setFlags _ _).trans ?_, State.flagV_setFlags _ _,
    State.zeroSign_setFlags _ _ rfl rfl, s.straight_store_setFlags z _ dst _⟩
  exact decide_not.symm

/-- The state after COM. -/
def complemented (z : Size) (dst : RegMem) : State :=
  (RegMem.store s z (~~~(RegMem.value s z dst)) dst).setFlags
    { z := some (~~~(RegMem.value s z dst) == 0), s := some (~~~(RegMem.value s z dst)).msb,
      v := comV s.cfg.flags z (~~~(RegMem.value s z dst)) }

theorem complemented_writes (z : Size) (dst : RegMem) :
    RegMem.after s (complemented s z dst) z dst = ~~~(RegMem.value s z dst) ∧
      ZeroSign (~~~(RegMem.value s z dst)) (complemented s z dst) ∧
      s.Straight (complemented s z dst) (RegMem.regs z dst) [bitZ, bitS, bitV] .data (RegMem.bytes s z dst) := by
  refine ⟨RegMem.after_store_setFlags s z _ dst _, State.zeroSign_setFlags _ _ rfl rfl,
    (s.straight_store_setFlags z _ dst _).mono (fun _ h => h) ?_ (fun _ h => h)⟩
  cases comV s.cfg.flags z (~~~(RegMem.value s z dst)) <;> simp [FlagWrite.bits]

theorem flagV_complemented_byte (dst : RegMem) :
    (complemented s .b dst).flagV = if s.docFlags then false else evenOnes (~~~(RegMem.value s .b dst)) := by
  refine (State.flagV_setFlags _ _).trans ?_
  rw [← parity_eq_evenOnes]
  unfold State.docFlags
  cases s.cfg.flags <;> rfl

end

/-! ## The conditions after a comparison (R274) -/

section
variable {w : Nat} {a b r : BitVec w} {t : State}

theorem IsDiff.result_eq_sub (h : IsDiff a b false r t) : r = a - b := by
  apply BitVec.eq_of_toNat_eq
  have hb : b.toNat ≤ 2 ^ w := b.isLt.le
  have exact : (r.toNat : Int) = ((2 ^ w - b.toNat + a.toNat : Nat) : Int) % 2 ^ w := by
    rw [h.result, ← Int.add_emod_left]
    push_cast [hb]
    congr 1
    simp
    ring
  rw [BitVec.toNat_sub]
  exact_mod_cast exact

/-- Z after a comparison: a difference is 0 just for equal operands. -/
theorem IsCompare.zero (h : IsCompare a b t) : t.flagZ = decide (a = b) := by
  obtain ⟨⟨r, diff⟩, -⟩ := h
  rw [diff.z, diff.result_eq_sub, decide_eq_decide]
  exact sub_eq_zero

/-- C after a comparison is the unsigned order. -/
theorem IsCompare.carry (h : IsCompare a b t) : t.flagC = decide (a.toNat < b.toNat) := h.2

/-- Operands of one sign: their difference has no overflow, so its sign is their order. -/
theorem msb_sub_of_msb_eq (hw : 0 < w) (h : a.msb = b.msb) : (a - b).msb = decide (a.toNat < b.toNat) := by
  have half : 2 ^ w = 2 * 2 ^ (w - 1) := by rw [← pow_succ', Nat.sub_add_cancel hw]
  have ha := a.isLt
  have hb := b.isLt
  rw [BitVec.msb_eq_decide, BitVec.msb_eq_decide, decide_eq_decide] at h
  rw [BitVec.msb_eq_decide, decide_eq_decide, BitVec.toNat_sub]
  by_cases less : a.toNat < b.toNat
  · rw [Nat.mod_eq_of_lt (by omega)]
    omega
  · rw [show 2 ^ w - b.toNat + a.toNat = a.toNat - b.toNat + 2 ^ w by omega, Nat.add_mod_right,
      Nat.mod_eq_of_lt (by omega)]
    omega

/-- The sign of the difference, corrected by its overflow, is the signed order. -/
theorem sign_xor_overflow_sub (hw : 0 < w) (a b : BitVec w) :
    ((a - b).msb ^^ ((a ^^^ b) &&& (a ^^^ (a - b))).msb) = decide (a.toInt < b.toInt) := by
  rw [BitVec.msb_and, BitVec.msb_xor, BitVec.msb_xor, ← BitVec.slt_eq_decide]
  by_cases h : a.msb = b.msb
  · rw [BitVec.slt_eq_ult_of_msb_eq h, BitVec.ult_eq_decide, msb_sub_of_msb_eq hw h, h]
    simp
  · rw [BitVec.slt_eq_not_ult_of_msb_neq h, BitVec.ult_eq_msb_of_msb_neq h, Bool.eq_not.2 h]
    cases b.msb <;> simp

/-- S and V after a comparison: they differ just where the signed order holds. -/
theorem IsCompare.less (h : IsCompare a b t) (hw : 0 < w) : (t.flagS ^^ t.flagV) = decide (a.toInt < b.toInt) := by
  obtain ⟨⟨r, diff⟩, -⟩ := h
  rw [diff.s, diff.v, ← BitVec.msb_eq_getLsbD_last, ← BitVec.msb_eq_getLsbD_last, diff.result_eq_sub,
    sign_xor_overflow_sub hw]

theorem IsCompare.zero_or_less (h : IsCompare a b t) (hw : 0 < w) :
    (t.flagZ || (t.flagS ^^ t.flagV)) = decide (a.toInt ≤ b.toInt) := by
  rw [h.zero, h.less hw, ← Bool.decide_or, decide_eq_decide, le_iff_eq_or_lt, BitVec.toInt_inj]

theorem IsCompare.carry_or_zero (h : IsCompare a b t) : (t.flagC || t.flagZ) = decide (a.toNat ≤ b.toNat) := by
  rw [h.carry, h.zero, ← Bool.decide_or, decide_eq_decide, le_iff_lt_or_eq, BitVec.toNat_inj]

end

/-- A flag that says `p`, inverted, says the opposite of `p`. -/
theorem not_eq_decide {flag : Bool} {p q : Prop} [Decidable p] [Decidable q] (h : flag = decide p) (hq : ¬p ↔ q) :
    (!flag) = decide q := by
  rw [h, ← decide_not, decide_eq_decide, hq]

/-! ## Products (R287, R288) -/

theorem mulFlags_productFlags (s : State) (w : Nat) (p : Int) : ProductFlags w p (s.setFlags (mulFlags w p)) := by
  constructor <;> simp [mulFlags]

/-- The product of two factors fits twice their width. -/
theorem toInt_ofInt_product {w : Nat} (hw : 0 < w) (x y : BitVec w) :
    (BitVec.ofInt (w * 2) (x.toInt * y.toInt)).toInt = x.toInt * y.toInt := by
  have room : (2 : Int) ^ (w * 2 - 2) < 2 ^ (w * 2 - 1) := pow_lt_pow_right₀ one_lt_two (by omega)
  exact BitVec.toInt_ofInt_eq_self (by omega) ((neg_le_neg room.le).trans BitVec.le_toInt_mul_toInt)
    (BitVec.toInt_mul_toInt_le.trans_lt room)

theorem State.straight_setRq (s : State) (d : Reg) (v : Quad) (sp : Space) :
    s.Straight (s.setRq d v) [d, d + 1, d + 2, d + 3] [] sp [] := by
  rw [← reg_add_two_one]
  exact (s.straight_setRr d _ sp).trans (State.straight_setRr _ (d + 2) _ sp)

theorem State.rq_setFlags (s : State) (f : FlagWrite) (d : Reg) : (s.setFlags f).rq d = s.rq d :=
  State.rq_congr _ _ (s.rw_setFlags f) d

/-! ## Sign extension (R292, R293) -/

theorem State.rr_setRw_high (s : State) (d : Reg) (v : Word) : (s.setRw d v).rr d = v ++ s.rw (d + 1) := by
  rw [State.rr, s.rw_setRw_same, s.rw_setRw_of_ne (reg_ne_succ d).symm]

theorem State.rq_setRr_high (s : State) (d : Reg) (v : Long) : (s.setRr d v).rq d = v ++ s.rr (d + 2) := by
  obtain ⟨h3, h2, -, h13, h12, -⟩ := regs_distinct d
  have low : (s.setRr d v).rr (d + 2) = s.rr (d + 2) := by
    simp only [State.rr, reg_add_two_one, State.rw_setRr, if_neg h2.symm, if_neg h3.symm, if_neg h12.symm,
      if_neg h13.symm]
  rw [State.rq, s.rr_setRr_same, low]

theorem toInt_signWord_append (x : Word) : ((if x.msb then 0xFFFF else 0 : Word) ++ x).toInt = x.toInt := by
  rw [← BitVec.toInt_signExtend_of_le (v := 32) (x := x) (by decide), BitVec.signExtend_eq_append_of_le (by decide)]
  rfl

theorem toInt_signLong_append (x : Long) : ((if x.msb then 0xFFFFFFFF else 0 : Long) ++ x).toInt = x.toInt := by
  rw [← BitVec.toInt_signExtend_of_le (v := 64) (x := x) (by decide), BitVec.signExtend_eq_append_of_le (by decide)]
  rfl

/-! ## Decimal adjust (R294) -/

/-- Both directions of the table of corrections in one: only an addition looks at the digits. -/
theorem dabCorrection_eq (c h d : Bool) (a : Byte) :
    dabCorrection c h d a =
      ((if h || (!d && decide (9 < a.toNat % 16)) then 0x06 else 0) |||
        (if c || (!d && decide (0x99 < a.toNat)) then 0x60 else 0), c || (!d && decide (0x99 < a.toNat))) := by
  cases d <;> simp [dabCorrection]

theorem toNat_corrections (six sixty : Bool) :
    ((if six then 0x06 else 0 : Byte) ||| (if sixty then 0x60 else 0)).toNat =
      (if six then 6 else 0) + (if sixty then 0x60 else 0) := by
  revert six sixty
  decide

theorem toNat_dabResult (c h d : Bool) (a : Byte) :
    (dabResult c h d a).toNat =
      (if d then a.toNat + 256 - (dabCorrection c h d a).1.toNat else a.toNat + (dabCorrection c h d a).1.toNat) % 256 := by
  cases d
  · exact BitVec.toNat_add _ _
  · have small := (dabCorrection c h true a).1.isLt
    simp only [dabResult, if_true, BitVec.toNat_sub]
    omega

/-! ## The statements -/

/-- Settles O18: each form is one word or long result of the flag unit. -/
theorem wordAndLongAddSubtract : Obligations.WordAndLongAddSubtract := by
  refine ⟨fun s d src hw => ?_, fun s d r => ?_, fun s d src hw => ?_, fun s d r => ?_, fun s d src hw => ?_,
    fun s d src hw => ?_⟩
  · obtain ⟨shown, carry, half, frame⟩ := wordResult_writes s d (addFlags (s.rw d) (Src.value s src) false)
    exact ⟨_, s.checked_of_wf (Src.legal_eq_wf src) hw _, shown.isSum, carry, half, frame⟩
  · obtain ⟨shown, carry, half, frame⟩ := wordResult_writes s d (addFlags (s.rw d) (s.rw r) s.flagC)
    exact ⟨_, rfl, shown.isSum, carry, half, frame⟩
  · obtain ⟨shown, carry, half, frame⟩ := wordResult_writes s d (subFlags (s.rw d) (Src.value s src) false)
    exact ⟨_, s.checked_of_wf (Src.legal_eq_wf src) hw _, shown.isDiff, carry.trans (subFlags_borrow _ _ _), half, frame⟩
  · obtain ⟨shown, carry, half, frame⟩ := wordResult_writes s d (subFlags (s.rw d) (s.rw r) s.flagC)
    exact ⟨_, rfl, shown.isDiff, carry.trans (subFlags_borrow _ _ _), half, frame⟩
  · obtain ⟨shown, carry, frame⟩ := longResult_writes s d (addFlags (s.rr d) (Src.value s src) false)
    exact ⟨_, s.checked_of_wf (evenOk_and_src d src) hw _, shown.isSum, carry, frame⟩
  · obtain ⟨shown, carry, frame⟩ := longResult_writes s d (subFlags (s.rr d) (Src.value s src) false)
    exact ⟨_, s.checked_of_wf (evenOk_and_src d src) hw _, shown.isDiff, carry.trans (subFlags_borrow _ _ _), frame⟩

/-- Settles O19: each form is one byte result of the flag unit, with D by its direction. -/
theorem byteAddSubtract : Obligations.ByteAddSubtract := by
  refine ⟨fun s d src hw => ?_, fun s d r => ?_, fun s d src hw => ?_, fun s d r => ?_⟩
  · obtain ⟨shown, carry, rest⟩ := byteResult_writes s false d (addFlags (s.rb d) (Src.value s src) false)
    exact ⟨_, s.checked_of_wf (Src.legal_eq_wf src) hw _, shown.isSum, carry, rest⟩
  · obtain ⟨shown, carry, rest⟩ := byteResult_writes s false d (addFlags (s.rb d) (s.rb r) s.flagC)
    exact ⟨_, rfl, shown.isSum, carry, rest⟩
  · obtain ⟨shown, carry, rest⟩ := byteResult_writes s true d (subFlags (s.rb d) (Src.value s src) false)
    exact ⟨_, s.checked_of_wf (Src.legal_eq_wf src) hw _, shown.isDiff, carry.trans (subFlags_borrow _ _ _), rest⟩
  · obtain ⟨shown, carry, rest⟩ := byteResult_writes s true d (subFlags (s.rb d) (s.rb r) s.flagC)
    exact ⟨_, rfl, shown.isDiff, carry.trans (subFlags_borrow _ _ _), rest⟩

/-- Settles O20: each form is the check and the flags of one subtraction. -/
theorem comparesWriteFlagsOnly : Obligations.ComparesWriteFlagsOnly :=
  ⟨fun s d src hw => ⟨_, s.checked_of_wf (Src.legal_eq_wf src) hw _, compare_writes s (s.rw d) (Src.value s src)⟩,
    fun s d src hw => ⟨_, s.checked_of_wf (Src.legal_eq_wf src) hw _, compare_writes s (s.rb d) (Src.value s src)⟩,
    fun s d src hw => ⟨_, s.checked_of_wf (evenOk_and_src d src) hw _, compare_writes s (s.rr d) (Src.value s src)⟩,
    fun s dst k hw =>
      ⟨_, s.checked_of_wf (MemOp.legal_eq_wf dst) hw _, compare_writes s (s.readWord .data (MemOp.ea s dst)) k⟩,
    fun s dst k hw =>
      ⟨_, s.checked_of_wf (MemOp.legal_eq_wf dst) hw _, compare_writes s (s.readByte .data (MemOp.ea s dst)) k⟩⟩

/-- Settles O21: every condition is a formula of three: Z is equality, C the unsigned order, S differing from V the signed
order. -/
theorem comparisonSetsTheConditions : Obligations.ComparisonSetsTheConditions := by
  intro s t d src hw ht
  obtain ⟨cp, -⟩ := comparesWriteFlagsOnly
  obtain ⟨u, hu, comparison, -⟩ := cp s d src hw
  obtain rfl : u = t := Host.Outcome.next.inj (hu.symm.trans ht)
  have equal := comparison.zero
  have below := comparison.carry
  have atMostUnsigned := comparison.carry_or_zero
  have less := comparison.less (by decide)
  have atMost := comparison.zero_or_less (by decide)
  exact ⟨equal, not_eq_decide equal Iff.rfl, less, not_eq_decide less not_lt, atMost, not_eq_decide atMost not_le, below,
    not_eq_decide below not_lt, atMostUnsigned, not_eq_decide atMostUnsigned not_le⟩

/-- Settles O22: each form is the check and one result of the flag unit, for the operand `n + 1`. -/
theorem incrementAndDecrement : Obligations.IncrementAndDecrement := by
  refine ⟨fun s dst n hw => ?_, fun s dst n hw => ?_, fun s dst n hw => ?_, fun s dst n hw => ?_⟩
  · obtain ⟨shown, half, frame⟩ := stepResult_writes s .w dst (addFlags (RegMem.value s .w dst) (incBy .w n) false)
    exact ⟨_, s.checked_of_wf (RegMem.legal_eq_wf .w dst) hw _, shown.isSum, half, frame⟩
  · obtain ⟨shown, half, frame⟩ := stepResult_writes s .b dst (addFlags (RegMem.value s .b dst) (incBy .b n) false)
    exact ⟨_, s.checked_of_wf (RegMem.legal_eq_wf .b dst) hw _, shown.isSum, half, frame,
      RegMem.rb_store_setFlags_of_ne s _ _⟩
  · obtain ⟨shown, half, frame⟩ := stepResult_writes s .w dst (subFlags (RegMem.value s .w dst) (incBy .w n) false)
    exact ⟨_, s.checked_of_wf (RegMem.legal_eq_wf .w dst) hw _, shown.isDiff, half, frame⟩
  · obtain ⟨shown, half, frame⟩ := stepResult_writes s .b dst (subFlags (RegMem.value s .b dst) (incBy .b n) false)
    exact ⟨_, s.checked_of_wf (RegMem.legal_eq_wf .b dst) hw _, shown.isDiff, half, frame,
      RegMem.rb_store_setFlags_of_ne s _ _⟩

/-- Settles O23: each form is the check, one store and flags of the operand or of the result. -/
theorem negateAndComplement : Obligations.NegateAndComplement := by
  refine ⟨fun s dst hw => ?_, fun s dst hw => ?_, fun s dst hw => ?_, fun s dst hw => ?_⟩
  · exact ⟨_, s.checked_of_wf (RegMem.legal_eq_wf .w dst) hw _, negated_writes s .w dst⟩
  · obtain ⟨value, carry, overflow, zeroSign, frame⟩ := negated_writes s .b dst
    exact ⟨_, s.checked_of_wf (RegMem.legal_eq_wf .b dst) hw _, value, carry, overflow, zeroSign, frame,
      RegMem.rb_store_setFlags_of_ne s _ _⟩
  · obtain ⟨value, zeroSign, frame⟩ := complemented_writes s .w dst
    exact ⟨_, s.checked_of_wf (RegMem.legal_eq_wf .w dst) hw _, value, zeroSign,
      RegMem.flagV_store_setFlags s .w _ dst rfl, frame⟩
  · obtain ⟨value, zeroSign, frame⟩ := complemented_writes s .b dst
    exact ⟨_, s.checked_of_wf (RegMem.legal_eq_wf .b dst) hw _, value, zeroSign, flagV_complemented_byte s dst, frame,
      RegMem.rb_store_setFlags_of_ne s _ _⟩

/-- Settles O24: one register write of the product and its flags. -/
theorem multiplyGivesTheSignedProduct : Obligations.MultiplyGivesTheSignedProduct := by
  refine ⟨fun s d src hw => ?_, fun s d src hw => ?_⟩
  · refine ⟨_, s.checked_of_wf (evenOk_and_src d src) hw _, ?_, mulFlags_productFlags _ _ _,
      s.straight_setReg_setFlags .l d _ _ .data⟩
    exact (congrArg BitVec.toInt (s.reg_setReg_setFlags .l d _ _)).trans (toInt_ofInt_product (by decide) _ _)
  · refine ⟨_, s.checked_of_wf (quadOk_and_src d src) hw _, ?_, mulFlags_productFlags _ _ _,
      (s.straight_setRq d _ .data).trans (State.straight_setFlags _ _ .data)⟩
    rw [State.rq_setFlags, State.rq_setRq_same]
    exact toInt_ofInt_product (by decide) _ _

/-- Settles O26: one write of the register that holds the high half; the low half is read after it. -/
theorem signExtensions : Obligations.SignExtensions := by
  refine ⟨fun s d => ⟨_, rfl, ?_, s.straight_setRw d _ .data⟩,
    fun s d hw => ⟨_, s.checked_of_wf (evenOk_eq_longReg d) hw _, ?_, s.straight_setRw d _ .data⟩,
    fun s d hw => ⟨_, s.checked_of_wf (quadOk_eq_quadReg d) hw _, ?_, s.straight_setRr d _ .data⟩⟩
  · rw [s.rw_setRw_same]
    exact BitVec.toInt_signExtend_of_le (by decide)
  · rw [s.rr_setRw_high]
    exact toInt_signWord_append _
  · rw [s.rq_setRr_high]
    exact toInt_signLong_append _

/-- Settles O27: one byte result and its flags, by the table of corrections. -/
theorem decimalAdjust : Obligations.DecimalAdjust := by
  intro s d
  refine ⟨_, rfl, ⟨?_, ?_⟩, ?_, s.straight_setReg_setFlags .b d _ _ .data, s.rb_setRb_setFlags_of_ne d _ _⟩
  · rw [State.rb_setRb_setFlags_same, toNat_dabResult, dabCorrection_eq, toNat_corrections]
  · rw [State.flagC_setFlags, dabCorrection_eq]
    rfl
  · rw [State.rb_setRb_setFlags_same]
    exact State.zeroSign_setFlags _ _ rfl rfl

end Sys2Proof.Machine
end

section
/-! PROOFS of the statements about `42_logical_bit.md`: AND, OR, XOR and TEST, the bit instructions, TSET and TCC (R320 to
R345). -/
namespace Sys2Proof.Machine

/-! ## The flags of a logical result (R320) -/

section
variable (p : FlagProfile) (z : Size) (r : z.Val)

theorem logicFlags_c : (logicFlags p z r).c = docOnly p false := by cases z <;> rfl

theorem logicFlags_z : (logicFlags p z r).z = some (r == 0) := by cases z <;> rfl

theorem logicFlags_s : (logicFlags p z r).s = some r.msb := by cases z <;> rfl

/-- V is the parity of a byte; the other widths name it under `doc` only. -/
theorem logicFlags_v : (logicFlags p z r).v = if z = .b then some (evenOnes r) else docOnly p false := by
  cases z with
  | b => exact congrArg some (parity_eq_evenOnes r)
  | w | l => rfl

end

section
variable (s : State)

/-- The flags of a logical result, written in a state that has the flags of `s`. -/
theorem State.logicFlagsOf_setFlags {t : State} (hf : t.fcw = s.fcw) (z : Size) (r : z.Val) :
    LogicFlagsOf s (t.setFlags (logicFlags s.cfg.flags z r)) z r := by
  obtain ⟨keepsC, -, -, keepsV, -, -⟩ := State.flags_congr hf
  obtain ⟨zero, sign⟩ := t.zeroSign_setFlags r (logicFlags_z s.cfg.flags z r) (logicFlags_s s.cfg.flags z r)
  refine ⟨zero, sign, ?_, ?_⟩
  · rw [State.flagC_setFlags, logicFlags_c, docOnly_getD, keepsC]
  · rw [State.flagV_setFlags, logicFlags_v, keepsV, ← docOnly_getD]
    split <;> rfl

/-- The state after a logical result in a register. -/
def logicResult (z : Size) (d : Reg) (r : z.Val) : State := (s.setReg z d r).setFlags (logicFlags s.cfg.flags z r)

theorem logicResult_writes (z : Size) (d : Reg) (r : z.Val) :
    (logicResult s z d r).reg z d = r ∧ LogicFlagsOf s (logicResult s z d r) z ((logicResult s z d r).reg z d) ∧
      s.Straight (logicResult s z d r) (destRegs z d) [bitC, bitZ, bitS, bitV] .data [] := by
  have value : (logicResult s z d r).reg z d = r := s.reg_setReg_setFlags z d r _
  refine ⟨value, ?_, (s.straight_setReg_setFlags z d r _ .data).mono (fun _ h => h) (logicFlags_bits _ z r)
    (fun _ h => h)⟩
  rw [value]
  exact s.logicFlagsOf_setFlags (s.setReg_fcw z d r) z r

theorem logicResult_writes_byte (d : Reg) (r : Byte) :
    (logicResult s .b d r).rb d = r ∧ LogicFlagsOf s (logicResult s .b d r) .b ((logicResult s .b d r).rb d) ∧
      s.Straight (logicResult s .b d r) [byteHome d] [bitC, bitZ, bitS, bitV] .data [] ∧
      ∀ n, n ≠ d → (logicResult s .b d r).rb n = s.rb n := by
  obtain ⟨value, flags, frame⟩ := logicResult_writes s .b d r
  exact ⟨value, flags, frame, s.rb_setRb_setFlags_of_ne d r _⟩

theorem test_writes (z : Size) (r : z.Val) :
    LogicFlagsOf s (s.setFlags (logicFlags s.cfg.flags z r)) z r ∧
      s.Straight (s.setFlags (logicFlags s.cfg.flags z r)) [] [bitC, bitZ, bitS, bitV] .data [] :=
  ⟨s.logicFlagsOf_setFlags rfl z r,
    (s.straight_setFlags _ .data).mono (fun _ h => h) (logicFlags_bits _ z r) (fun _ h => h)⟩

/-! ## One bit of an operand (R330 to R341) -/

theorem bitNumber_word (b : BitVec 4) : bitNumber .w b = b.toNat := Nat.mod_eq_of_lt b.isLt

theorem bitTest_writes (b : Bool) :
    (s.setFlags { z := some b }).flagZ = b ∧ s.Straight (s.setFlags { z := some b }) [] [bitZ] .data [] :=
  ⟨s.flagZ_setFlags _, s.straight_setFlags _ .data⟩

end

section
variable {w : Nat} (x : BitVec w)

theorem replacesBit_set (i : Nat) : ReplacesBit x (x ||| (1#w <<< i)) i true := by
  intro k hk
  rw [← BitVec.twoPow_eq, BitVec.getLsbD_or, BitVec.getLsbD_twoPow]
  by_cases h : k = i
  · subst h
    simp [hk]
  · simp [h, Ne.symm h]

theorem replacesBit_reset (i : Nat) : ReplacesBit x (x &&& ~~~(1#w <<< i)) i false := by
  intro k hk
  rw [← BitVec.twoPow_eq, BitVec.getLsbD_and, BitVec.getLsbD_not, BitVec.getLsbD_twoPow]
  by_cases h : k = i
  · subst h
    simp [hk]
  · simp [h, Ne.symm h, hk]

/-- A bit that keeps its value. -/
theorem replacesBit_self (i : Nat) : ReplacesBit x x i (x.getLsbD i) := by
  intro k _
  split
  · next h => rw [h]
  · rfl

end

section
variable (s : State)

/-- An operand with one bit replaced, stored back. -/
theorem RegMem.store_replaces {z : Size} {dst : RegMem} {v : z.Val} {i : Nat} {b : Bool}
    (h : ReplacesBit (RegMem.value s z dst) v i b) :
    ReplacesBit (RegMem.value s z dst) (RegMem.after s (RegMem.store s z v dst) z dst) i b ∧
      s.Straight (RegMem.store s z v dst) (RegMem.regs z dst) [] .data (RegMem.bytes s z dst) := by
  obtain ⟨value, frame⟩ := RegMem.store_writes s z v dst
  exact ⟨value.symm ▸ h, frame⟩

theorem RegMem.store_replaces_byte {dst : RegMem} {v : Byte} {i : Nat} {b : Bool}
    (h : ReplacesBit (RegMem.value s .b dst) v i b) :
    ReplacesBit (RegMem.value s .b dst) (RegMem.after s (RegMem.store s .b v dst) .b dst) i b ∧
      s.Straight (RegMem.store s .b v dst) (RegMem.regs .b dst) [] .data (RegMem.bytes s .b dst) ∧
      ∀ n, dst ≠ .reg n → (RegMem.store s .b v dst).rb n = s.rb n := by
  obtain ⟨value, frame⟩ := RegMem.store_replaces s h
  exact ⟨value, frame, fun n hn => RegMem.reg_store_of_ne s (z := .b) (by decide) hn v⟩

theorem State.setRw_replaces {d : Reg} {v : Word} {i : Nat} {b : Bool} (h : ReplacesBit (s.rw d) v i b) :
    ReplacesBit (s.rw d) ((s.setRw d v).rw d) i b ∧ s.Straight (s.setRw d v) [d] [] .data [] :=
  RegMem.store_replaces s (z := .w) (dst := .reg d) h

theorem State.setRb_replaces {d : Reg} {v : Byte} {i : Nat} {b : Bool} (h : ReplacesBit (s.rb d) v i b) :
    ReplacesBit (s.rb d) ((s.setRb d v).rb d) i b ∧ s.Straight (s.setRb d v) [byteHome d] [] .data [] ∧
      ∀ n, n ≠ d → (s.setRb d v).rb n = s.rb n := by
  obtain ⟨value, frame, others⟩ := s.setRb_writes d v
  exact ⟨value.symm ▸ h, frame, others⟩

/-! ## Test and set, test condition (R342 to R345) -/

/-- The frame of an instruction that may write the registers `rs` and leaves them. -/
theorem State.straight_unchanged (rs : List Reg) : s.Straight s rs [] .data [] :=
  (State.Straight.refl s .data).mono (by simp) (fun _ h => h) (fun _ h => h)

/-- The state after TSET and TSETB. -/
def testedAndSet (z : Size) (dst : RegMem) : State :=
  (RegMem.store s z (BitVec.allOnes z.bits) dst).setFlags { s := some (RegMem.value s z dst).msb }

theorem testedAndSet_writes (z : Size) (dst : RegMem) :
    RegMem.after s (testedAndSet s z dst) z dst = BitVec.allOnes z.bits ∧
      (testedAndSet s z dst).flagS = (RegMem.value s z dst).getLsbD (z.bits - 1) ∧
      s.Straight (testedAndSet s z dst) (RegMem.regs z dst) [bitS] .data (RegMem.bytes s z dst) :=
  ⟨RegMem.after_store_setFlags s z _ dst _, (State.flagS_setFlags _ _).trans (BitVec.msb_eq_getLsbD_last _),
    s.straight_store_setFlags z _ dst _⟩

end

/-! ## The statements -/

/-- Settles O28: each form is the check and one logical result, or its flags alone. -/
theorem logicalOperationsAndTests : Obligations.LogicalOperationsAndTests :=
  ⟨fun s d src hw => ⟨_, s.checked_of_wf (Src.legal_eq_wf src) hw _, logicResult_writes s .w d _⟩,
    fun s d src hw => ⟨_, s.checked_of_wf (Src.legal_eq_wf src) hw _, logicResult_writes s .w d _⟩,
    fun s d src hw => ⟨_, s.checked_of_wf (Src.legal_eq_wf src) hw _, logicResult_writes s .w d _⟩,
    fun s d src hw => ⟨_, s.checked_of_wf (Src.legal_eq_wf src) hw _, logicResult_writes_byte s d _⟩,
    fun s d src hw => ⟨_, s.checked_of_wf (Src.legal_eq_wf src) hw _, logicResult_writes_byte s d _⟩,
    fun s d src hw => ⟨_, s.checked_of_wf (Src.legal_eq_wf src) hw _, logicResult_writes_byte s d _⟩,
    fun s dst hw => ⟨_, s.checked_of_wf (RegMem.legal_eq_wf .w dst) hw _, test_writes s .w _⟩,
    fun s dst hw => ⟨_, s.checked_of_wf (RegMem.legal_eq_wf .b dst) hw _, test_writes s .b _⟩,
    fun s dst hw => ⟨_, s.checked_of_wf (RegMem.legal_eq_wf .l dst) hw _, test_writes s .l _⟩⟩

/-- Settles O29: BIT is one flag write; SET and RES are one store of the operand with a bit replaced, the dynamic forms to
a register, which needs no check. -/
theorem bitInstructions : Obligations.BitInstructions := by
  refine ⟨fun s dst b hw => ⟨_, s.checked_of_wf (RegMem.legal_eq_wf .w dst) hw _, ?_⟩,
    fun s dst b hw => ⟨_, s.checked_of_wf (RegMem.legal_eq_wf .b dst) hw _, bitTest_writes s _⟩,
    fun s d r => ⟨_, rfl, bitTest_writes s _⟩,
    fun s d r => ⟨_, rfl, bitTest_writes s _⟩,
    fun s dst b hw => ⟨_, s.checked_of_wf (RegMem.legal_eq_wf .w dst) hw _, ?_⟩,
    fun s dst b hw =>
      ⟨_, s.checked_of_wf (RegMem.legal_eq_wf .b dst) hw _, RegMem.store_replaces_byte s (replacesBit_set _ _)⟩,
    fun s d r => ⟨_, rfl, s.setRw_replaces (replacesBit_set _ _)⟩,
    fun s d r => ⟨_, rfl, s.setRb_replaces (replacesBit_set _ _)⟩,
    fun s dst b hw => ⟨_, s.checked_of_wf (RegMem.legal_eq_wf .w dst) hw _, ?_⟩,
    fun s dst b hw =>
      ⟨_, s.checked_of_wf (RegMem.legal_eq_wf .b dst) hw _, RegMem.store_replaces_byte s (replacesBit_reset _ _)⟩,
    fun s d r => ⟨_, rfl, s.setRw_replaces (replacesBit_reset _ _)⟩,
    fun s d r => ⟨_, rfl, s.setRb_replaces (replacesBit_reset _ _)⟩⟩
  · rw [bitNumber_word]
    exact bitTest_writes s _
  · rw [bitNumber_word]
    exact RegMem.store_replaces s (replacesBit_set _ _)
  · rw [bitNumber_word]
    exact RegMem.store_replaces s (replacesBit_reset _ _)

/-- Settles O30: TSET and TSETB store ones and write S; TCC and TCCB set bit 0 of the register, or write nothing. -/
theorem testAndSetAndTestCondition : Obligations.TestAndSetAndTestCondition := by
  refine ⟨fun s dst hw => ⟨_, s.checked_of_wf (RegMem.legal_eq_wf .w dst) hw _, testedAndSet_writes s .w dst⟩,
    fun s dst hw => ?_, fun s cc d => ⟨_, rfl, ?_⟩, fun s cc d => ⟨_, rfl, ?_⟩⟩
  · obtain ⟨value, sign, frame⟩ := testedAndSet_writes s .b dst
    exact ⟨_, s.checked_of_wf (RegMem.legal_eq_wf .b dst) hw _, value, sign, frame, RegMem.rb_store_setFlags_of_ne s _ _⟩
  · cases s.holds cc
    · exact ⟨replacesBit_self (s.rw d) 0, s.straight_unchanged _⟩
    · exact s.setRw_replaces (replacesBit_set (s.rw d) 0)
  · cases s.holds cc
    · exact ⟨replacesBit_self (s.rb d) 0, s.straight_unchanged _, fun _ _ => rfl⟩
    · exact s.setRb_replaces (replacesBit_set (s.rb d) 0)

end Sys2Proof.Machine
end

section
/-! PROOFS of the statements about `43_shift_rotate.md`: rotates, shifts and digit rotates (R370 to R394). -/
namespace Sys2Proof.Machine

/-! ## The state after a shift or rotate (R371) -/

section
variable (s : State)

/-- A byte register's result and flags keep every other byte register, the other byte of its word included. -/
theorem State.rb_setReg_setFlags_of_ne {z : Size} (hz : z = .b) (d : Reg) (r : z.Val) (f : FlagWrite) (n : Reg)
    (h : n ≠ d) : ((s.setReg z d r).setFlags f).rb n = s.rb n := by
  subst hz
  exact s.rb_setRb_setFlags_of_ne d r f n h

/-- The state `shiftResult` answers: a result in a register, and C, Z, S, V. -/
def afterShift (z : Size) (d : Reg) (o : ShiftOut z.bits) (v : Bool) : State :=
  (s.setReg z d o.r).setFlags { c := some o.c, z := some (o.r == 0), s := some o.r.msb, v := some v }

theorem afterShift_writes (z : Size) (d : Reg) (o : ShiftOut z.bits) (v : Bool) :
    (afterShift s z d o v).reg z d = o.r ∧ (afterShift s z d o v).flagC = o.c ∧
      ZeroSign o.r (afterShift s z d o v) ∧ (afterShift s z d o v).flagV = v ∧
      s.Straight (afterShift s z d o v) (destRegs z d) [bitC, bitZ, bitS, bitV] .data [] :=
  ⟨s.reg_setReg_setFlags z d o.r _, State.flagC_setFlags _ _, State.zeroSign_setFlags _ o.r rfl rfl,
    State.flagV_setFlags _ _, s.straight_setReg_setFlags z d o.r _ .data⟩

end

/-! ## One pass of the rotate loop (R394)

A pass moves every bit up or down by one and puts a bit in the place left free. A pass through the carry is a pass of the
vector of `w + 1` bits with the carry on top. -/

section
variable {w : Nat} (x : BitVec w)

/-- A pass to the left with `b` put in at bit 0. -/
theorem getLsbD_shiftLeft_or_ofBool (b : Bool) {i : Nat} (hi : i < w) :
    ((x <<< 1) ||| (BitVec.ofBool b).zeroExtend w).getLsbD i = if i = 0 then b else x.getLsbD (i - 1) := by
  cases i with
  | zero => simp [hi]
  | succ i => simp [hi, BitVec.getLsbD_eq_getElem (Nat.lt_of_succ_lt hi)]

/-- A pass to the right with `b` put in at the sign bit. -/
theorem getLsbD_ofBool_or_shiftRight (b : Bool) {i : Nat} (hi : i < w) :
    (((BitVec.ofBool b).zeroExtend w <<< (w - 1)) ||| (x >>> 1)).getLsbD i =
      if i = w - 1 then b else x.getLsbD (i + 1) := by
  split
  · next top =>
    subst top
    simp [hi, Nat.add_sub_cancel' (Nat.one_le_of_lt hi)]
  · have low : i < w - 1 := by omega
    simp [low, Nat.add_comm]

theorem getLsbD_rotateLeft_one (hw : 1 < w) {i : Nat} (hi : i < w) :
    (x.rotateLeft 1).getLsbD i = if i = 0 then x.msb else x.getLsbD (i - 1) := by
  rw [BitVec.getLsbD_rotateLeft, Nat.mod_eq_of_lt hw, BitVec.msb_eq_getLsbD_last]
  cases i <;> simp [hi]

theorem getLsbD_rotateRight_one (hw : 1 < w) {i : Nat} (hi : i < w) :
    (x.rotateRight 1).getLsbD i = if i = w - 1 then x.getLsbD 0 else x.getLsbD (i + 1) := by
  rw [BitVec.getLsbD_rotateRight, Nat.mod_eq_of_lt hw]
  split
  · next top =>
    subst top
    simp [hi]
  · have low : i < w - 1 := by omega
    simp [low, Nat.add_comm]

theorem rotateLeft_one_one (hw : 2 < w) : (x.rotateLeft 1).rotateLeft 1 = x.rotateLeft 2 := by
  refine BitVec.eq_of_getLsbD_eq fun i hi => ?_
  simp only [BitVec.getLsbD_rotateLeft, Nat.mod_eq_of_lt hw, Nat.mod_eq_of_lt (Nat.lt_of_succ_lt hw)]
  grind

theorem rotateRight_one_one (hw : 2 < w) : (x.rotateRight 1).rotateRight 1 = x.rotateRight 2 := by
  refine BitVec.eq_of_getLsbD_eq fun i hi => ?_
  simp only [BitVec.getLsbD_rotateRight, Nat.mod_eq_of_lt hw, Nat.mod_eq_of_lt (Nat.lt_of_succ_lt hw)]
  grind

theorem rotateOnce_rl (hw : 1 < w) (c : Bool) : rotateOnce .rl x c = (x.rotateLeft 1, x.msb) :=
  Prod.ext (BitVec.eq_of_getLsbD_eq fun _ hi =>
    (getLsbD_shiftLeft_or_ofBool x x.msb hi).trans (getLsbD_rotateLeft_one x hw hi).symm) rfl

theorem rotateOnce_rr (hw : 1 < w) (c : Bool) : rotateOnce .rr x c = (x.rotateRight 1, x.getLsbD 0) :=
  Prod.ext (BitVec.eq_of_getLsbD_eq fun _ hi =>
    (getLsbD_ofBool_or_shiftRight x (x.getLsbD 0) hi).trans (getLsbD_rotateRight_one x hw hi).symm) rfl

/-- A pass through the carry, `y` being the carry on top of the value. -/
theorem rotateOnce_rlc (hw : 0 < w) (y : BitVec (w + 1)) :
    rotateOnce .rlc (y.setWidth w) y.msb = ((y.rotateLeft 1).setWidth w, (y.rotateLeft 1).msb) := by
  refine Prod.ext (BitVec.eq_of_getLsbD_eq fun i hi => (getLsbD_shiftLeft_or_ofBool _ y.msb hi).trans ?_) ?_
  · have low : i - 1 < w := by omega
    rw [BitVec.getLsbD_setWidth, BitVec.getLsbD_setWidth,
      getLsbD_rotateLeft_one y (Nat.succ_lt_succ hw) (Nat.lt_succ_of_lt hi)]
    simp [hi, low]
  · rw [BitVec.msb_eq_getLsbD_last (y.rotateLeft 1), getLsbD_rotateLeft_one y (Nat.succ_lt_succ hw) (by omega)]
    simp [rotateOnce, BitVec.msb_eq_getLsbD_last, hw, hw.ne']

theorem rotateOnce_rrc (hw : 0 < w) (y : BitVec (w + 1)) :
    rotateOnce .rrc (y.setWidth w) y.msb = ((y.rotateRight 1).setWidth w, (y.rotateRight 1).msb) := by
  refine Prod.ext (BitVec.eq_of_getLsbD_eq fun i hi => (getLsbD_ofBool_or_shiftRight _ y.msb hi).trans ?_) ?_
  · rw [BitVec.getLsbD_setWidth, BitVec.getLsbD_setWidth,
      getLsbD_rotateRight_one y (Nat.succ_lt_succ hw) (Nat.lt_succ_of_lt hi), BitVec.msb_eq_getLsbD_last]
    grind
  · rw [BitVec.msb_eq_getLsbD_last (y.rotateRight 1), getLsbD_rotateRight_one y (Nat.succ_lt_succ hw) (by omega)]
    simp [rotateOnce, hw]

end

/-! ## The loop for one and two passes (R394) -/

section
variable {w : Nat}

/-- Two passes of the rotate `k` from the value `x` and the carry `c`: `turn n` and `carry n` are those after `n`. -/
structure Turns (k : Rotate) (x : BitVec w) (c : Bool) (turn : Nat → BitVec w) (carry : Nat → Bool) : Prop where
  first : rotateOnce k x c = (turn 1, carry 1)
  second : rotateOnce k (turn 1) (carry 1) = (turn 2, carry 2)

variable (x : BitVec w) (c : Bool)

theorem turns_rl (hw : 2 < w) : Turns .rl x c x.rotateLeft fun n => x.getLsbD (w - n) where
  first := by rw [rotateOnce_rl x (Nat.lt_of_succ_lt hw), BitVec.msb_eq_getLsbD_last]
  second := by
    rw [rotateOnce_rl _ (Nat.lt_of_succ_lt hw), rotateLeft_one_one x hw, BitVec.msb_eq_getLsbD_last,
      getLsbD_rotateLeft_one x (Nat.lt_of_succ_lt hw) (by omega), if_neg (by omega), Nat.sub_sub]

theorem turns_rr (hw : 2 < w) : Turns .rr x c x.rotateRight fun n => x.getLsbD (n - 1) where
  first := rotateOnce_rr x (Nat.lt_of_succ_lt hw) c
  second := by
    rw [rotateOnce_rr _ (Nat.lt_of_succ_lt hw), rotateRight_one_one x hw,
      getLsbD_rotateRight_one x (Nat.lt_of_succ_lt hw) (by omega), if_neg (by omega)]

theorem turns_rlc (hw : 1 < w) : Turns .rlc x c (turnLeftCarry c x) fun n => ((withCarry c x).rotateLeft n).msb where
  first := by
    have step := rotateOnce_rlc (Nat.lt_of_succ_lt hw) (withCarry c x)
    rwa [withCarry, BitVec.setWidth_cons, BitVec.msb_cons] at step
  second := by
    have step := rotateOnce_rlc (Nat.lt_of_succ_lt hw) ((withCarry c x).rotateLeft 1)
    rwa [rotateLeft_one_one _ (Nat.succ_lt_succ hw)] at step

theorem turns_rrc (hw : 1 < w) : Turns .rrc x c (turnRightCarry c x) fun n => ((withCarry c x).rotateRight n).msb where
  first := by
    have step := rotateOnce_rrc (Nat.lt_of_succ_lt hw) (withCarry c x)
    rwa [withCarry, BitVec.setWidth_cons, BitVec.msb_cons] at step
  second := by
    have step := rotateOnce_rrc (Nat.lt_of_succ_lt hw) ((withCarry c x).rotateRight 1)
    rwa [rotateRight_one_one _ (Nat.succ_lt_succ hw)] at step

end

section
variable {w : Nat} {k : Rotate} {x : BitVec w} {c : Bool} {turn : Nat → BitVec w} {carry : Nat → Bool}

/-- What the loop answers, in the values after its passes. -/
theorem Turns.rotate_eq (h : Turns k x c turn carry) (twice : Bool) :
    rotate k x c twice =
      { r := turn (rotCount twice), c := carry (rotCount twice),
        v := (turn 1).msb != x.msb || (twice && (turn 2).msb != x.msb) } := by
  cases twice with
  | false => simp [rotate, rotCount, h.first]
  | true => simp [rotate, rotCount, h.first, h.second]

theorem exists_pass_iff (p : Nat → Prop) (twice : Bool) :
    (∃ n, 1 ≤ n ∧ n ≤ rotCount twice ∧ p n) ↔ p 1 ∨ twice = true ∧ p 2 := by
  cases twice <;> grind [rotCount]

/-- A state that shows the result and flags of the loop (R394). -/
theorem Turns.rotated (h : Turns k x c turn carry) (twice : Bool) {t : State} (hc : t.flagC = (rotate k x c twice).c)
    (zs : ZeroSign (rotate k x c twice).r t) (hv : t.flagV = (rotate k x c twice).v) :
    Rotated x (rotCount twice) turn (carry (rotCount twice)) (rotate k x c twice).r t := by
  rw [h.rotate_eq] at hc hv zs ⊢
  refine ⟨rfl, hc, zs, ?_⟩
  rw [hv, exists_pass_iff]
  simp

end

section
variable (s : State)

/-- The state after a rotate of a register. -/
def afterRotate (z : Size) (k : Rotate) (d : Reg) (twice : Bool) : State :=
  afterShift s z d (rotate k (s.reg z d) s.flagC twice) (rotate k (s.reg z d) s.flagC twice).v

theorem afterRotate_writes {z : Size} {k : Rotate} {d : Reg} {turn : Nat → z.Val} {carry : Nat → Bool}
    (h : Turns k (s.reg z d) s.flagC turn carry) (twice : Bool) :
    Rotated (s.reg z d) (rotCount twice) turn (carry (rotCount twice)) ((afterRotate s z k d twice).reg z d)
        (afterRotate s z k d twice) ∧
      s.Straight (afterRotate s z k d twice) (destRegs z d) [bitC, bitZ, bitS, bitV] .data [] := by
  obtain ⟨value, flagC, zs, flagV, frame⟩ := afterShift_writes s z d (rotate k (s.reg z d) s.flagC twice) _
  refine ⟨?_, frame⟩
  rw [afterRotate, value]
  exact h.rotated twice flagC zs flagV

theorem afterRotate_writes_byte {k : Rotate} {d : Reg} {turn : Nat → Byte} {carry : Nat → Bool}
    (h : Turns k (s.rb d) s.flagC turn carry) (twice : Bool) :
    Rotated (s.rb d) (rotCount twice) turn (carry (rotCount twice)) ((afterRotate s .b k d twice).rb d)
        (afterRotate s .b k d twice) ∧
      s.Straight (afterRotate s .b k d twice) [byteHome d] [bitC, bitZ, bitS, bitV] .data [] ∧
      ∀ n, n ≠ d → (afterRotate s .b k d twice).rb n = s.rb n := by
  obtain ⟨rotated, frame⟩ := afterRotate_writes s (z := .b) h twice
  exact ⟨rotated, frame, s.rb_setReg_setFlags_of_ne rfl d _ _⟩

end

/-! ## Shifts by a count in range (R371) -/

section
variable {w : Nat} (x : BitVec w) (b : Int)

theorem shiftArith_of_pos (h : 0 < b) : shiftArith x b = shiftLeft x b.toNat := by
  rw [shiftArith, if_neg h.ne', if_pos h]

theorem shiftArith_of_neg (h : b < 0) : shiftArith x b = shiftRightArith x (-b).toNat := by
  rw [shiftArith, if_neg h.ne, if_neg h.not_gt]

theorem shiftLogic_of_pos (h : 0 < b) : shiftLogic x b = shiftLeft x b.toNat := by
  rw [shiftLogic, if_neg h.ne', if_pos h]

theorem shiftLogic_of_neg (h : b < 0) : shiftLogic x b = shiftRightLogic x (-b).toNat := by
  rw [shiftLogic, if_neg h.ne, if_neg h.not_gt]

theorem toNat_shiftLeft_r (n : Nat) : (shiftLeft x n).r.toNat = x.toNat * 2 ^ n % 2 ^ w := by
  rw [shiftLeft, BitVec.toNat_shiftLeft, Nat.shiftLeft_eq]

theorem toInt_shiftRightArith_r (n : Nat) : (shiftRightArith x n).r.toInt = x.toInt / 2 ^ n := by
  rw [shiftRightArith, BitVec.toInt_sshiftRight, Int.shiftRight_eq_div_pow, Nat.cast_pow, Nat.cast_ofNat]

theorem toNat_shiftRightLogic_r (n : Nat) : (shiftRightLogic x n).r.toNat = x.toNat / 2 ^ n := by
  rw [shiftRightLogic, BitVec.toNat_ushiftRight, Nat.shiftRight_eq_div_pow]

theorem shifted_shiftArith {t : State} (hc : t.flagC = (shiftArith x b).c) (zs : ZeroSign (shiftArith x b).r t) :
    Shifted true x b (shiftArith x b).r t where
  left h := by
    rw [hc, shiftArith_of_pos x b h]
    exact ⟨toNat_shiftLeft_r x _, rfl⟩
  rightArith h _ := by
    rw [hc, shiftArith_of_neg x b h]
    exact ⟨toInt_shiftRightArith_r x _, rfl⟩
  rightLogic _ h := absurd h (by decide)
  zero h := by
    subst h
    exact ⟨rfl, hc⟩
  zs := zs

theorem shifted_shiftLogic {t : State} (hc : t.flagC = (shiftLogic x b).c) (zs : ZeroSign (shiftLogic x b).r t) :
    Shifted false x b (shiftLogic x b).r t where
  left h := by
    rw [hc, shiftLogic_of_pos x b h]
    exact ⟨toNat_shiftLeft_r x _, rfl⟩
  rightArith _ h := absurd h (by decide)
  rightLogic h _ := by
    rw [hc, shiftLogic_of_neg x b h]
    exact ⟨toNat_shiftRightLogic_r x _, rfl⟩
  zero h := by
    subst h
    exact ⟨rfl, hc⟩
  zs := zs

/-- The model's loop over the bits of a left shift finds a changed sign where there is one. -/
theorem signChanged_iff (n : Nat) : signChanged x n = true ↔ ∃ k, 1 ≤ k ∧ k ≤ n ∧ (x <<< k).msb ≠ x.msb := by
  induction n with
  | zero => exact iff_of_false Bool.false_ne_true fun ⟨k, one, le, _⟩ => by omega
  | succ n ih =>
    simp only [signChanged, Bool.or_eq_true, ih, bne_iff_ne]
    constructor
    · rintro (⟨k, one, le, ne⟩ | ne)
      · exact ⟨k, one, by omega, ne⟩
      · exact ⟨n + 1, by omega, le_rfl, ne⟩
    · rintro ⟨k, one, le, ne⟩
      rcases Nat.lt_or_eq_of_le le with lt | rfl
      · exact .inl ⟨k, one, by omega, ne⟩
      · exact .inr ne

theorem not_signLeft_of_nonpos (h : b ≤ 0) : ¬ signLeft x b := fun ⟨k, one, le, _⟩ => by omega

theorem shiftArith_v_iff : (shiftArith x b).v = true ↔ signLeft x b := by
  rcases lt_trichotomy b 0 with neg | rfl | pos
  · rw [shiftArith_of_neg x b neg]
    exact iff_of_false Bool.false_ne_true (not_signLeft_of_nonpos x b neg.le)
  · exact iff_of_false Bool.false_ne_true (not_signLeft_of_nonpos x 0 le_rfl)
  · rw [shiftArith_of_pos x b pos, shiftLeft, signChanged_iff]
    simp only [signLeft, BitVec.msb_eq_getLsbD_last, Int.le_toNat pos.le]

end

section
variable (s : State) {z : Size} {d : Reg} {i : Instr}

/-- A shift by a count in range answers its result. -/
theorem checked_shift_of_count {count : Word} (hd : z.regWf d = true) (lo : -(z.bits : Int) ≤ count.toInt)
    (hi : count.toInt ≤ z.bits) (o : ShiftOut z.bits) (v : Bool) :
    s.checked (sizeOk z d)
        (if countOk z.bits (shiftCount count) then shiftResult z d o v s else shiftDrawn z d s) =
      .next (afterShift s z d o v) := by
  have ok : countOk z.bits (shiftCount count) = true := by
    rw [countOk, shiftCount, decide_eq_true lo, decide_eq_true hi]
    rfl
  rw [s.checked_of_wf (sizeOk_eq_regWf z d) hd, if_pos ok, shiftResult, afterShift]

theorem shiftsArith {count : Word} (hd : z.regWf d = true) (h : exec i s = shiftArithReg z d count s) :
    ShiftsArith z i d count s := by
  intro lo hi
  obtain ⟨value, flagC, zs, flagV, frame⟩ := afterShift_writes s z d (shiftArith (s.reg z d) count.toInt) _
  refine ⟨_, h.trans (checked_shift_of_count s hd lo hi _ _), ?_, ?_, frame,
    fun hz => s.rb_setReg_setFlags_of_ne hz d _ _⟩
  · exact value.symm ▸ shifted_shiftArith _ _ flagC zs
  · exact (Bool.eq_iff_iff.1 flagV).trans (shiftArith_v_iff _ _)

theorem shiftsLogic {count : Word} (hd : z.regWf d = true) (h : exec i s = shiftLogicReg z d count s) :
    ShiftsLogic z i d count s := by
  intro lo hi
  obtain ⟨value, flagC, zs, -, frame⟩ := afterShift_writes s z d (shiftLogic (s.reg z d) count.toInt) _
  refine ⟨_, h.trans (checked_shift_of_count s hd lo hi _ _), ?_, frame, fun hz => s.rb_setReg_setFlags_of_ne hz d _ _⟩
  exact value.symm ▸ shifted_shiftLogic _ _ flagC zs

/-! ## Shifts by any count (R370) -/

/-- One register write and one write of C, Z, S and V. -/
theorem shiftCompletes_of_next {r : z.Val} {f : FlagWrite} (hf : f.bits = [bitC, bitZ, bitS, bitV])
    (h : exec i s = .next ((s.setReg z d r).setFlags f)) : ShiftCompletes z i d s :=
  ⟨_, h, hf ▸ s.straight_setReg_setFlags z d r f .data, fun hz => s.rb_setReg_setFlags_of_ne hz d r f⟩

/-- Every shift instruction has this form: the check, then the shifted register or the free values. -/
theorem shiftCompletes {ok v : Bool} {o : ShiftOut z.bits} (hd : z.regWf d = true)
    (h : exec i s = s.checked (sizeOk z d) (if ok then shiftResult z d o v s else shiftDrawn z d s)) :
    ShiftCompletes z i d s := by
  rw [s.checked_of_wf (sizeOk_eq_regWf z d) hd] at h
  cases ok with
  | true => exact shiftCompletes_of_next s rfl h
  | false => exact shiftCompletes_of_next s rfl h

end

theorem regWf_long_of_even {d : Reg} (even : d.toNat % 2 = 0) : Size.l.regWf d = true := beq_iff_eq.2 even

/-! ## Digit rotates (R392, R393) -/

theorem toNat_digit1 (k : Byte) : (Byte.digit1 k).toNat = k.toNat / 16 := by
  rw [Byte.digit1, BitVec.extractLsb'_toNat, Nat.shiftRight_eq_div_pow]
  omega

theorem toNat_digit0 (k : Byte) : (Byte.digit0 k).toNat = k.toNat % 16 := by
  rw [Byte.digit0, BitVec.extractLsb'_toNat, Nat.shiftRight_zero]

theorem toNat_digit_append (a b : Reg) : (a ++ b : Byte).toNat = a.toNat * 16 + b.toNat := by
  rw [BitVec.toNat_append, ← Nat.shiftLeft_add_eq_or_of_lt b.isLt, Nat.shiftLeft_eq]

section
variable (s : State)

/-- The state `digitRotate` answers; the link's write comes last. -/
def afterDigits (l r : Reg) (newRotated newLink : Byte) : State :=
  ((s.setRb r newRotated).setRb l newLink).setFlags { z := some (newLink == 0), s := some newLink.msb }

theorem afterDigits_writes (l r : Reg) {newRotated newLink : Byte} {rotated link : Nat}
    (hr : newRotated.toNat = rotated) (hl : newLink.toNat = link) :
    (l ≠ r → ((afterDigits s l r newRotated newLink).rb r).toNat = rotated) ∧
      ((afterDigits s l r newRotated newLink).rb l).toNat = link ∧
      ZeroSign ((afterDigits s l r newRotated newLink).rb l) (afterDigits s l r newRotated newLink) ∧
      s.Straight (afterDigits s l r newRotated newLink) [byteHome l, byteHome r] [bitZ, bitS] .data [] ∧
      ∀ n, n ≠ l → n ≠ r → (afterDigits s l r newRotated newLink).rb n = s.rb n := by
  have last : (afterDigits s l r newRotated newLink).rb l = newLink := State.rb_setRb_setFlags_same _ l newLink _
  have others (n : Reg) (h : n ≠ l) : (afterDigits s l r newRotated newLink).rb n = (s.setRb r newRotated).rb n :=
    State.rb_setRb_setFlags_of_ne _ l newLink _ n h
  rw [last]
  refine ⟨fun ne => ?_, hl, State.zeroSign_setFlags _ newLink rfl rfl, ?_, fun n nl nr => ?_⟩
  · rw [others r ne.symm, State.rb_setRb_same, hr]
  · exact ((s.straight_setRb r _ .data).trans (State.straight_setReg_setFlags _ .b l newLink _ .data)).mono
      (fun _ h => by simpa [destRegs, or_comm] using h) (fun _ h => h) (fun _ h => h)
  · rw [others n nl, State.rb_setRb, if_neg nr]

end

/-! ## The statements -/

/-- Settles O31: the loop of R394 turns the register, alone or under the carry, by one bit a pass (`Turns`). -/
theorem rotates : Obligations.Rotates :=
  ⟨fun s d twice => ⟨_, rfl, afterRotate_writes s (z := .w) (turns_rl (s.rw d) s.flagC (by decide)) twice⟩,
    fun s d twice => ⟨_, rfl, afterRotate_writes s (z := .w) (turns_rr (s.rw d) s.flagC (by decide)) twice⟩,
    fun s d twice => ⟨_, rfl, afterRotate_writes s (z := .w) (turns_rlc (s.rw d) s.flagC (by decide)) twice⟩,
    fun s d twice => ⟨_, rfl, afterRotate_writes s (z := .w) (turns_rrc (s.rw d) s.flagC (by decide)) twice⟩,
    fun s d twice => ⟨_, rfl, afterRotate_writes_byte s (turns_rl (s.rb d) s.flagC (by decide)) twice⟩,
    fun s d twice => ⟨_, rfl, afterRotate_writes_byte s (turns_rr (s.rb d) s.flagC (by decide)) twice⟩,
    fun s d twice => ⟨_, rfl, afterRotate_writes_byte s (turns_rlc (s.rb d) s.flagC (by decide)) twice⟩,
    fun s d twice => ⟨_, rfl, afterRotate_writes_byte s (turns_rrc (s.rb d) s.flagC (by decide)) twice⟩⟩

/-- Settles O32: each form is `shiftArithReg`, its count in the instruction or in a register. -/
theorem arithmeticShifts : Obligations.ArithmeticShifts := fun s _ _ _ =>
  ⟨shiftsArith s rfl rfl, shiftsArith s rfl rfl, fun even => shiftsArith s (regWf_long_of_even even) rfl,
    shiftsArith s rfl rfl, shiftsArith s rfl rfl, fun even => shiftsArith s (regWf_long_of_even even) rfl⟩

/-- Settles O33: each form is `shiftLogicReg`, its count in the instruction or in a register. -/
theorem logicalShifts : Obligations.LogicalShifts := fun s _ _ _ =>
  ⟨shiftsLogic s rfl rfl, shiftsLogic s rfl rfl, fun even => shiftsLogic s (regWf_long_of_even even) rfl,
    shiftsLogic s rfl rfl, shiftsLogic s rfl rfl, fun even => shiftsLogic s (regWf_long_of_even even) rfl⟩

/-- Settles O34: in range or not, a shift is one register write and one write of C, Z, S and V. -/
theorem shiftsByAnyCountComplete : Obligations.ShiftsByAnyCountComplete := fun s _ _ _ =>
  ⟨shiftCompletes s rfl rfl, shiftCompletes s rfl rfl, shiftCompletes s rfl rfl, shiftCompletes s rfl rfl,
    shiftCompletes s rfl rfl, shiftCompletes s rfl rfl, shiftCompletes s rfl rfl, shiftCompletes s rfl rfl,
    fun even =>
      have long := regWf_long_of_even even
      ⟨shiftCompletes s long rfl, shiftCompletes s long rfl, shiftCompletes s long rfl, shiftCompletes s long rfl⟩⟩

/-- Settles O35: two byte writes of digits of the old values, the link's last, and Z and S from the link. -/
theorem digitRotates : Obligations.DigitRotates := by
  refine ⟨fun s l r => ⟨_, rfl, afterDigits_writes s l r ?_ ?_⟩, fun s l r => ⟨_, rfl, afterDigits_writes s l r ?_ ?_⟩⟩
  · rw [toNat_digit_append, toNat_digit0, toNat_digit0]
  · rw [toNat_digit_append, toNat_digit1, toNat_digit1]
  · rw [toNat_digit_append, toNat_digit0, toNat_digit1]
  · rw [toNat_digit_append, toNat_digit1, toNat_digit0]

end Sys2Proof.Machine
end

section
/-! PROOFS of the statements about `44_control.md`: jumps, decrement and jump, calls and returns (R400 to R407). -/
namespace Sys2Proof.Machine

/-! ## Relative targets (R402, R404, R406) -/

section
variable {n : Nat} (s : State)

theorem relTarget_signExtend (disp : BitVec n) :
    relTarget s (disp.signExtend 16) = s.pc + BitVec.ofInt 16 (2 * disp.toInt) := by
  rw [BitVec.ofInt_mul]
  rfl

theorem relTargetBack_signExtend (disp : BitVec n) :
    relTargetBack s (disp.signExtend 16) = s.pc - BitVec.ofInt 16 (2 * disp.toInt) := by
  rw [BitVec.ofInt_mul]
  rfl

theorem relTargetBack_zeroExtend (disp : BitVec n) :
    relTargetBack s (disp.zeroExtend 16) = s.pc - BitVec.ofNat 16 (2 * disp.toNat) := by
  rw [BitVec.ofNat_mul, BitVec.ofNat_toNat]
  rfl

end

/-! ## A jump writes the PC alone (R400) -/

section
variable {s t : State} {rs : List Reg} {fs : List Nat} {sp : Space} {stored : List Word}

theorem State.Frame.setPc (h : s.Frame t rs fs sp stored) (a : Word) : s.Frame (t.setPc a) rs fs sp stored where
  regs := h.regs
  otherSp := h.otherSp
  fcw := h.fcw
  mem := h.mem
  rest := { h.rest with }
  io := h.io
  reexec := h.reexec

/-- A jump taken where `p` holds, after an update that leaves the PC at the next instruction. -/
theorem State.Straight.jumpIf (h : s.Straight t rs fs sp stored) (p : Prop) [Decidable p] (a : Word) :
    (if p then t.setPc a else t).pc = (if p then a else s.pc) ∧
      s.Frame (if p then t.setPc a else t) rs fs sp stored := by
  split
  · exact ⟨rfl, h.toFrame.setPc a⟩
  · exact ⟨h.pc, h.toFrame⟩

/-- The same for a jump taken where `p` fails. -/
theorem State.Straight.jumpUnless (h : s.Straight t rs fs sp stored) (p : Prop) [Decidable p] (a : Word) :
    (if p then t else t.setPc a).pc = (if p then s.pc else a) ∧
      s.Frame (if p then t else t.setPc a) rs fs sp stored := by
  simpa only [ite_not] using h.jumpIf (¬ p) a

theorem State.rw_ite_setPc (t : State) (p : Prop) [Decidable p] (a : Word) (n : Reg) :
    (if p then t else t.setPc a).rw n = t.rw n := by
  split <;> rfl

theorem State.rb_ite_setPc (t : State) (p : Prop) [Decidable p] (a : Word) (n : Reg) :
    (if p then t else t.setPc a).rb n = t.rb n :=
  State.rb_congr _ _ (t.rw_ite_setPc p a) n

end

/-! ## Calls and returns (R403 to R405) -/

section
variable (s : State)

/-- The state after a call of `a`. -/
def called (a : Word) : State := (s.push 15 .w s.pc).setPc a

theorem called_writes (a : Word) :
    (called s a).pc = a ∧ (called s a).rw 15 = s.rw 15 - 2 ∧ (called s a).readWord .prog (s.rw 15 - 2) = s.pc ∧
      s.Frame (called s a) [15] [] .prog (accessBytes s.cfg .w (s.rw 15 - 2)) := by
  obtain ⟨pointer, pushed, frame⟩ := s.push_writes 15 .w s.pc
  exact ⟨rfl, pointer, pushed, frame.toFrame.setPc a⟩

/-- The state after a return. -/
def returned : State := (s.popped 15 .w).setPc (s.popValue 15 .w)

theorem returned_writes :
    (returned s).pc = s.readWord .prog (s.rw 15) ∧ (returned s).rw 15 = s.rw 15 + 2 ∧
      s.Frame (returned s) [15] [] .prog [] :=
  ⟨rfl, s.rw_setRw_same 15 _, (s.straight_popped 15 .w .prog).toFrame.setPc _⟩

end

/-! ## The statements -/

/-- Settles O36: each form is a conditional jump, after the decrement of a register in DJNZ and DBJNZ. -/
theorem jumps : Obligations.Jumps := by
  refine ⟨fun s cc dst hw =>
      ⟨_, s.checked_of_wf (MemOp.legal_eq_wf dst) hw _, (State.Straight.refl s .data).jumpIf (s.holds cc) _⟩,
    fun s cc disp => ⟨_, rfl, ?_⟩, fun s r disp => ⟨_, rfl, ?_⟩, fun s r disp => ⟨_, rfl, ?_⟩⟩
  · rw [relTarget_signExtend]
    exact (State.Straight.refl s .data).jumpIf (s.holds cc) _
  · rw [relTargetBack_zeroExtend, State.rw_ite_setPc]
    exact ⟨s.rw_setRw_same r _, (s.straight_setRw r _ .data).jumpUnless _ _⟩
  · obtain ⟨value, frame, others⟩ := s.setRb_writes r (s.rb r - 1)
    rw [relTargetBack_zeroExtend]
    simp only [State.rb_ite_setPc]
    obtain ⟨pc, jumped⟩ := frame.jumpUnless ((s.setRb r (s.rb r - 1)).rb r = 0) _
    exact ⟨value, pc, jumped, others⟩

/-- Settles O37: a call is a push of the PC and a jump; a return is a pop into the PC, or nothing. -/
theorem callsAndReturns : Obligations.CallsAndReturns := by
  refine ⟨fun s dst hw => ⟨_, s.checked_of_wf (MemOp.legal_eq_wf dst) hw _, called_writes s (MemOp.ea s dst)⟩,
    fun s disp => ⟨_, rfl, ?_⟩, fun s cc => ⟨_, rfl, fun h => ?_, fun h => ?_⟩⟩
  · rw [← relTargetBack_signExtend]
    exact called_writes s _
  · rw [if_pos h]
    exact returned_writes s
  · rw [h]
    rfl

end Sys2Proof.Machine
end

section
/-! PROOFS of the statements about `45_system.md`: halt and the interrupt masks, program status, the flag instructions,
control registers, and where the model stops (R430 to R460). -/
namespace Sys2Proof.Machine

section
variable (s : State)

/-! ## Writes of the FCW (R430 to R443) -/

/-- An FCW write that keeps the mode changes only the bits in which the word differs. -/
theorem State.straight_writeFcw {v : Word} {fs : List Nat} (mode : 14 ∉ fs)
    (kept : ∀ i, i ∉ fs → v.getLsbD i = s.fcw.getLsbD i) (sp : Space) : s.Straight (s.writeFcw v) [] fs sp [] where
  regs n _ := State.rw_congr s (s.writeFcw v) rfl rfl rfl (kept 14 mode) n
  otherSp := State.otherSp_congr s (s.writeFcw v) rfl rfl (kept 14 mode)
  fcw := kept
  mem _ _ _ := State.readByte_congr rfl rfl rfl _ _
  rest := by constructor <;> rfl
  io := rfl
  reexec := rfl
  pc := rfl

/-- The FCW that DI and EI leave: bits 12 and 11 are replaced where their field bit is 0. -/
theorem getLsbD_setEnables (v n b : Bool) (i : Nat) :
    (setEnables s v n b).fcw.getLsbD i =
      if i = 11 ∧ n = false ∨ i = 12 ∧ v = false then b else s.fcw.getLsbD i := by
  cases v <;> cases n <;> simp [setEnables, putBit_getLsbD, ite_or]

theorem setEnables_writes (v n b : Bool) :
    (setEnables s v n b).vie = (if v then s.vie else b) ∧ (setEnables s v n b).nvie = (if n then s.nvie else b) ∧
      s.Straight (setEnables s v n b) [] [12, 11] .data [] := by
  refine ⟨(getLsbD_setEnables s v n b 12).trans ?_, (getLsbD_setEnables s v n b 11).trans ?_,
    s.straight_writeFcw (by decide) (fun i hi => (getLsbD_setEnables s v n b i).trans (if_neg ?_)) .data⟩
  · cases v <;> rfl
  · cases n <;> rfl
  · rw [List.mem_cons, List.mem_singleton] at hi
    tauto

/-- A flag cell that is written on a condition. -/
theorem getD_ite_none (c : Prop) [Decidable c] (a b : Bool) :
    (if c then some a else none).getD b = if c then a else b := by
  split <;> rfl

theorem FlagWrite.mem_of_mem_bits {f : FlagWrite} (d : f.d = none) (h : f.h = none) {i : Nat} (hi : i ∈ f.bits) :
    i ∈ [bitC, bitZ, bitS, bitV] := by
  rw [FlagWrite.bits, d, h] at hi
  grind

/-- SETFLG, RESFLG and COMFLG replace a flag by a function of it where its mask bit is 1. -/
theorem setFlags_maskedFlags_writes (mask : BitVec 4) (f : Bool → Bool) :
    (∀ k, k < 4 → (s.setFlags (maskedFlags s mask f)).fcw.getLsbD (k + 4) =
      if mask.getLsbD k then f (s.fcw.getLsbD (k + 4)) else s.fcw.getLsbD (k + 4)) ∧
      s.Straight (s.setFlags (maskedFlags s mask f)) [] [bitC, bitZ, bitS, bitV] .data [] := by
  refine ⟨fun k hk => ((maskedFlags s mask f).getLsbD_apply s.fcw (k + 4)).trans ?_,
    (s.straight_setFlags (maskedFlags s mask f) .data).mono (fun _ h => h)
      (fun _ => FlagWrite.mem_of_mem_bits rfl rfl) (fun _ h => h)⟩
  match k, hk with
  | 0, _ | 1, _ | 2, _ | 3, _ => exact getD_ite_none _ _ _

/-- A word whose low byte is replaced keeps bits 15:8. -/
theorem getLsbD_hi_append (w : Word) (b : Byte) {i : Nat} (hi : 8 ≤ i) :
    (Word.hi w ++ b).getLsbD i = w.getLsbD i := by
  rw [BitVec.getLsbD_append, if_neg (by omega), Word.hi, BitVec.getLsbD_extractLsb', Nat.add_sub_cancel' hi]
  by_cases inWord : i < 16
  · rw [decide_eq_true (by omega), Bool.true_and]
  · rw [w.getLsbD_of_ge i (by omega), Bool.and_false]

/-! ## Program status (R434 to R436) -/

/-- An entry that is no interrupt clears no latch (R625). -/
theorem State.sameLatches_takeTrap {k : Trap} (nmi : k ≠ .nmi) (vi : k ≠ .vi) (nvi : k ≠ .nvi) :
    s.SameLatches (s.takeTrap k) := by
  obtain ⟨nmiKept, viKept, nviKept⟩ := s.latches_takeTrap k
  rw [bne_iff_ne.2 nmi, Bool.and_true] at nmiKept
  rw [bne_iff_ne.2 vi, Bool.and_true] at viKept
  rw [bne_iff_ne.2 nvi, Bool.and_true] at nviKept
  exact ⟨nviKept, viKept, nmiKept⟩

/-- The entry of the system-call trap, with its vector and the code as the identifier. -/
theorem State.entered_systemCall (code : Byte) :
    s.Entered (s.takeTrap (.sysCall code)) (s.psap + 0x0E) (s.psap + 0x10) (some (BitVec.ofNat 16 code.toNat)) := by
  have fcwAt : s.vectorFcwAddr (.sysCall code) = s.psap + 0x0E := by
    simp [State.vectorFcwAddr, Trap.number, BitVec.add_assoc]
  have pcAt : s.vectorPcAddr (.sysCall code) = s.psap + 0x10 := by
    simp [State.vectorPcAddr, Trap.number, BitVec.add_assoc]
  rw [BitVec.ofNat_toNat]
  exact fcwAt ▸ pcAt ▸ s.entered_takeTrap (.sysCall code)

/-- In system mode the return is through SSP. -/
theorem State.returnFromTrap_of_system (sys : s.sysMode = true) :
    s.returnFromTrap = { s with
      ssp := s.ssp + 4, pc := s.readWord .prog s.ssp, fcw := s.readWord .prog (s.ssp + 2) } := by
  rw [State.returnFromTrap, s.setRw_fifteen_sys sys, s.rw_fifteen, if_pos sys]

/-! ## Control registers (R440, R441) -/

/-- LDCTL from a control register writes its register alone. -/
theorem exec_ldctlRead (d : Reg) (k : Ctl) (sys : s.sysMode = true) :
    ∃ t, exec (.ldctlRead d k) s = .next t ∧ t.rw d = ctlValue s k ∧ s.Straight t [d] [] .data [] :=
  ⟨_, s.privileged_of_system sys _, s.setReg_writes .w d (ctlValue s k)⟩

theorem extractLsb_refreshValue : s.refreshValue.extractLsb' 9 7 = s.refresh.extractLsb' 9 7 := append_high _ _

theorem exec_ldctlWrite (k : Ctl) (r : Reg) (sys : s.sysMode = true) :
    exec (.ldctlWrite k r) s = .next (writeCtl s (s.rw r) k) := s.privileged_of_system sys _

end

theorem maskPsap_eq_ite (m : PsapMask) (v : Word) : maskPsap m v = if m = .all then v else v &&& 0xFF00 := by
  cases m <;> rfl

/-! ## Stops (R455 to R460; `60_exceptions.md` R608) -/

/-- The answer is a next state. -/
def Result.Completes (r : Result) : Prop := ∃ t, r = .next t

theorem Result.completes_next (t : State) : Result.Completes (.next t) := ⟨t, rfl⟩

theorem Result.completes_ite {c : Prop} [Decidable c] {k m : Result} (hk : Result.Completes k) (hm : Result.Completes m) :
    Result.Completes (if c then k else m) := by
  split
  · exact hk
  · exact hm

section
variable (s : State) {k : Result}

theorem State.completes_checked (legal : Bool) (hk : Result.Completes k) : Result.Completes (s.checked legal k) :=
  Result.completes_ite hk (Result.completes_next _)

theorem State.completes_privileged (hk : Result.Completes k) : Result.Completes (s.privileged k) :=
  Result.completes_ite hk (Result.completes_next _)

/-- A shift, its count in range or not (R370). -/
theorem completes_shift {c : Prop} [Decidable c] (z : Size) (d : Reg) (o : ShiftOut z.bits) (v : Bool) :
    Result.Completes (s.checked (sizeOk z d) (if c then shiftResult z d o v s else shiftDrawn z d s)) :=
  s.completes_checked _ (Result.completes_ite (Result.completes_next _) (Result.completes_next _))

theorem exec_of_multiMicro {i : Instr} (multi : Instr.isMultiMicro i = true) (sys : s.sysMode = true) :
    exec i s = .refused .multiMicro := by
  cases i with
  | mset | mres | mbit | mreq d => exact s.privileged_of_system sys _
  | _ => cases multi

theorem exec_of_epu {i : Instr} (isEpu : ∃ page op, i = .epu page op) (epa : s.epa = true) :
    exec i s = .refused .epuAbsent := by
  obtain ⟨page, op, rfl⟩ := isEpu
  exact if_pos epa

/-- Every meaning is a chain of checks that end in a trap, and after them a next state, but for the multi-micro and the
EPU words. -/
theorem exec_completes {i : Instr} (multi : ¬ (Instr.isMultiMicro i = true ∧ s.sysMode = true))
    (epu : ¬ ((∃ page op, i = .epu page op) ∧ s.epa = true)) : Result.Completes (exec i s) := by
  cases i with
  | mset | mres | mbit | mreq d =>
    have normal : s.sysMode = false := Bool.eq_false_iff.2 fun sys => multi ⟨rfl, sys⟩
    exact ⟨_, s.privileged_of_normal normal _⟩
  | epu page op => exact ⟨_, if_neg fun epa => epu ⟨⟨page, op, rfl⟩, epa⟩⟩
  | slaSra d count | sda d r | sllSrl d count | sdl d r => exact completes_shift s .w d _ _
  | slabSrab d count | sdab d r | sllbSrlb d count | sdlb d r => exact completes_shift s .b d _ _
  | slalSral d count | sdal d r | slllSrll d count | sdll d r => exact completes_shift s .l d _ _
  | halt | di v n | ei v n | iret | ldctlRead d k | ldctlWrite k r | inDir d port | inbDir d port | sin d port
  | sinb d port | outDir port r | outbDir port r | sout port r | soutb port r =>
    exact s.completes_privileged (Result.completes_next _)
  | ldps | inInd | inbInd | outInd | outbInd | ini | inir | ind | indr | inib | inirb | indb | indrb | sini | sinir
  | sind | sindr | sinib | sinirb | sindb | sindrb | outi | otir | outd | otdr | outib | otirb | outdb | otdrb | souti
  | sotir | soutd | sotdr | soutib | sotirb | soutdb | sotdrb =>
    exact s.completes_checked _ (s.completes_privileged (Result.completes_next _))
  | ldbShort | ldr | ldrb | ldrSt | ldrbSt | ldar | ldk | adc | adcb | sbc | sbcb | extsb | dab | tcc | tccb
  | bitDyn | bitbDyn | setDyn | setbDyn | resDyn | resbDyn | rl | rlb | rr | rrb | rlc | rlcb | rrc | rrcb
  | rldb | rrdb | jr | calr | ret | djnz | dbjnz | nop | sc | setflg | resflg | comflg | ldctlbRead
  | ldctlbWrite => exact Result.completes_next _
  | _ => exact s.completes_checked _ (Result.completes_next _)

/-- Everything `exec` can answer. -/
theorem exec_cases (i : Instr) :
    Result.Completes (exec i s) ∨
      (exec i s = .refused .multiMicro ∧ Instr.isMultiMicro i = true ∧ s.sysMode = true) ∨
      (exec i s = .refused .epuAbsent ∧ (∃ page op, i = .epu page op) ∧ s.epa = true) := by
  by_cases multi : Instr.isMultiMicro i = true ∧ s.sysMode = true
  · exact .inr (.inl ⟨exec_of_multiMicro s multi.1 multi.2, multi⟩)
  · by_cases epu : (∃ page op, i = .epu page op) ∧ s.epa = true
    · exact .inr (.inr ⟨exec_of_epu s epu.1 epu.2, epu⟩)
    · exact .inl (exec_completes s multi epu)

theorem exec_ne_fault (i : Instr) (f : Fault) : exec i s ≠ .fault f := nomatch f

theorem exec_ne_notModelled (i : Instr) (m : String) : exec i s ≠ .refused (.notModelled m) := by
  obtain ⟨t, h⟩ | ⟨h, -⟩ | ⟨h, -⟩ := exec_cases s i <;> rw [h] <;> nofun

theorem exec_eq_multiMicro_iff (i : Instr) :
    exec i s = .refused .multiMicro ↔ Instr.isMultiMicro i = true ∧ s.sysMode = true := by
  refine ⟨fun refused => ?_, fun ⟨multi, sys⟩ => exec_of_multiMicro s multi sys⟩
  obtain ⟨t, h⟩ | ⟨-, multi⟩ | ⟨h, -⟩ := exec_cases s i
  · cases h.symm.trans refused
  · exact multi
  · cases h.symm.trans refused

theorem exec_eq_epuAbsent_iff (i : Instr) :
    exec i s = .refused .epuAbsent ↔ (∃ page op, i = .epu page op) ∧ s.epa = true := by
  refine ⟨fun refused => ?_, fun ⟨isEpu, epa⟩ => exec_of_epu s isEpu epa⟩
  obtain ⟨t, h⟩ | ⟨h, -⟩ | ⟨-, epu⟩ := exec_cases s i
  · cases h.symm.trans refused
  · cases h.symm.trans refused
  · exact epu

end

/-! ## The statements -/

/-- Settles O38: in system mode HALT, DI and EI are one write of the latch or of the two enables. -/
theorem nopHaltAndInterruptMasks : Obligations.NopHaltAndInterruptMasks := by
  refine ⟨fun _ => rfl, fun s sys => s.privileged_of_system sys _,
    fun s v n sys => ⟨_, s.privileged_of_system sys _, ?_⟩, fun s v n sys => ⟨_, s.privileged_of_system sys _, ?_⟩⟩
  · obtain ⟨vie, nvie, frame⟩ := setEnables_writes s v n false
    exact ⟨vie.trans (by cases v <;> rfl), nvie.trans (by cases n <;> rfl), frame⟩
  · obtain ⟨vie, nvie, frame⟩ := setEnables_writes s v n true
    exact ⟨vie.trans (by cases v <;> rfl), nvie.trans (by cases n <;> rfl), frame⟩

/-- Settles O39: past the checks LDPS writes FCW and PC, and the return of IRET is through SSP. -/
theorem loadStatusAndReturnFromInterrupt : Obligations.LoadStatusAndReturnFromInterrupt :=
  ⟨fun s src hw sys => (s.checked_of_wf (MemOp.legal_eq_wf src) hw _).trans (s.privileged_of_system sys _),
    fun s sys => s.returnFromTrap_of_system sys ▸ s.privileged_of_system sys _⟩

/-- Settles O40: SC is the entry of its trap, with no check before it. -/
theorem systemCallEntersItsHandler : Obligations.SystemCallEntersItsHandler :=
  fun s code => ⟨_, rfl, s.entered_systemCall code, s.sameLatches_takeTrap nofun nofun nofun⟩

/-- Settles O41: the flag instructions by `setFlags_maskedFlags_writes`, LDCTLB by the write of a byte register and of the
FCW's low byte. -/
theorem flagInstructions : Obligations.FlagInstructions := by
  refine ⟨fun s mask => ⟨_, rfl, ?_⟩, fun s mask => ⟨_, rfl, ?_⟩, fun s mask => ⟨_, rfl, ?_⟩,
    fun s d => ⟨_, rfl, s.setRb_writes d _⟩, fun s r => ⟨_, rfl, lo_append _ _, ?_⟩⟩
  · obtain ⟨flags, frame⟩ := setFlags_maskedFlags_writes s mask fun _ => true
    exact ⟨fun k hk => (flags k hk).trans (by cases mask.getLsbD k <;> rfl), frame⟩
  · obtain ⟨flags, frame⟩ := setFlags_maskedFlags_writes s mask fun _ => false
    exact ⟨fun k hk => (flags k hk).trans (by cases mask.getLsbD k <;> rfl), frame⟩
  · obtain ⟨flags, frame⟩ := setFlags_maskedFlags_writes s mask not
    exact ⟨fun k hk => (flags k hk).trans (by cases mask.getLsbD k <;> simp), frame⟩
  · refine s.straight_writeFcw (by decide) (fun i hi => getLsbD_hi_append s.fcw (s.rb r) ?_) .data
    simp only [List.mem_cons, List.not_mem_nil] at hi
    omega

/-- Settles O42: in system mode a read is one register write, and a write one control-register write. -/
theorem controlRegisterMoves : Obligations.ControlRegisterMoves := by
  intro s d r sys
  obtain ⟨t, ran, value, frame⟩ := exec_ldctlRead s d .refresh sys
  refine ⟨exec_ldctlRead s d .fcw sys, ⟨t, ran, value ▸ extractLsb_refreshValue s, frame⟩,
    exec_ldctlRead s d .psap sys, exec_ldctlRead s d .nsp sys, exec_ldctlWrite s .fcw r sys,
    exec_ldctlWrite s .refresh r sys, ?_, exec_ldctlWrite s .nsp r sys⟩
  rw [← maskPsap_eq_ite]
  exact exec_ldctlWrite s .psap r sys

/-- Settles O43: `exec_cases` leaves no other answer, and each refusal has its own cases. -/
theorem stopsAreExactlyTheSpecs : Obligations.StopsAreExactlyTheSpecs :=
  ⟨fun i s => ⟨exec_ne_fault s i, exec_eq_multiMicro_iff s i, exec_eq_epuAbsent_iff s i, exec_ne_notModelled s i⟩,
    fun s _ sys => ⟨exec_of_multiMicro s rfl sys, exec_of_multiMicro s rfl sys, exec_of_multiMicro s rfl sys,
      exec_of_multiMicro s rfl sys⟩⟩

end Sys2Proof.Machine
end

section
/-! PROOFS of the statements about `46_io.md`: input and output of a register (R470 to R482). -/
namespace Sys2Proof.Machine

section
variable (s : State) (z : Size) (ios : IoSpace)

/-! ## A port access is noted in `io` alone (R470) -/

/-- No register, flag, byte of memory or latch depends on the record of port accesses. -/
theorem State.frameCore_io (l : List IoAccess) (sp : Space) : s.FrameCore { s with io := l } [] [] sp [] where
  regs _ _ := rfl
  otherSp := rfl
  fcw _ _ := rfl
  mem _ _ _ := rfl
  rest := by constructor <;> rfl

theorem State.frameCore_noteRead (port : Word) (sp : Space) : s.FrameCore (s.noteRead z ios port) [] [] sp [] :=
  s.frameCore_io _ sp

theorem State.frameCore_ioWrite (port : Word) (v : z.Val) (sp : Space) :
    s.FrameCore (s.ioWrite z ios port v) [] [] sp [] := s.frameCore_io _ sp

/-! ## Input and output of a register past the checks (R470) -/

variable {s z ios} {i : Instr}

/-- An input is a port read, then one write of its register. -/
theorem inputs_of_inputReg {d : Reg} {port : Word} (sys : s.sysMode = true)
    (ran : exec i s = inputReg z ios d port s) : Inputs z ios i d port s := by
  have written := (s.noteRead z ios port).straight_setReg z d (s.portValue z ios port) .data
  refine ⟨_, s.portValue z ios port, ran.trans (s.privileged_of_system sys _), rfl, State.reg_setReg_same _ z d _,
    written.io, (s.frameCore_noteRead z ios port .data).trans written.toFrameCore, written.pc, written.reexec, ?_⟩
  rintro rfl n other
  exact (s.noteRead .b ios port).reg_setReg_of_ne (z := .b) nofun other _

/-- An output is a port write of its register. -/
theorem outputs_of_outputReg {r : Reg} {port : Word} (sys : s.sysMode = true)
    (ran : exec i s = outputReg z ios port r s) : Outputs z ios i port r s :=
  ⟨_, ran.trans (s.privileged_of_system sys _), rfl, s.frameCore_ioWrite z ios port _ .data, rfl, rfl⟩

/-- The decode check of a port register other than R0 passes. -/
theorem State.checked_of_ne_zero {r : Reg} (nonzero : r ≠ 0) (k : Result) : s.checked (pointerOk r) k = k :=
  s.checked_of_wf (pointerOk_eq_ptrReg r) (bne_iff_ne.2 nonzero) k

end

/-! ## The statement -/

/-- Settles O44: past its checks each instruction is `inputReg` or `outputReg` of its width and port space. -/
theorem inputAndOutput : Obligations.InputAndOutput := fun _ _ _ _ sys =>
  ⟨fun nonzero => ⟨inputs_of_inputReg sys (State.checked_of_ne_zero nonzero _),
      inputs_of_inputReg sys (State.checked_of_ne_zero nonzero _)⟩,
    inputs_of_inputReg sys rfl, inputs_of_inputReg sys rfl, inputs_of_inputReg sys rfl, inputs_of_inputReg sys rfl,
    fun nonzero => ⟨outputs_of_outputReg sys (State.checked_of_ne_zero nonzero _),
      outputs_of_outputReg sys (State.checked_of_ne_zero nonzero _)⟩,
    outputs_of_outputReg sys rfl, outputs_of_outputReg sys rfl, outputs_of_outputReg sys rfl, outputs_of_outputReg sys rfl⟩

end Sys2Proof.Machine
end

section
/-! PROOFS of the statements about `47_block.md` and `48_block_io.md`: one iteration of a block instruction (R500 to
R568). An iteration is its accesses, from `s` to `u`; then the move of its pointers, from `u` to `t`; then its end, from
`t` to `blockEndState t r f again`. -/
namespace Sys2Proof.Machine

/-! ## The pointers and the end of an iteration (R500, R502, R504) -/

section
variable {s t u : State}

/-- From `u` to `t` the pointers `ps`, possibly twice the same, moved by `k`, and nothing else changed. -/
structure State.MovedBy (u t : State) (ps : List Reg) (k : Word) : Prop where
  frame : u.Straight t ps [] .data []
  regs : ∀ n, t.rw n = u.rw n + BitVec.ofNat 16 (ps.count n) * k

theorem State.movedBy_bump (u : State) (p : Reg) (k : Word) : u.MovedBy (u.bump p k) [p] k :=
  ⟨u.straight_bump p k .data, fun n => u.rw_bump_one p n k⟩

theorem State.movedBy_bump_bump (u : State) (p q : Reg) (k : Word) : u.MovedBy ((u.bump p k).bump q k) [p, q] k :=
  ⟨(u.straight_bump p k .data).trans (State.straight_bump _ q k .data), fun n => u.rw_bump_bump p q n k⟩

/-- A byte register is kept where its word register is. -/
theorem State.FrameCore.rb_eq {rs : List Reg} {fs : List Nat} {sp : Space} {stored : List Word}
    (frame : u.FrameCore t rs fs sp stored) {n : Reg} (out : byteHome n ∉ rs) : t.rb n = u.rb n := by
  rw [State.rb, State.rb, frame.regs _ out]

/-- Where nothing is stored, memory reads the same. -/
theorem State.FrameCore.memRead_eq {rs : List Reg} {fs : List Nat} {sp : Space} (frame : u.FrameCore t rs fs sp [])
    (z : Size) (a : Word) : t.memRead sp z a = u.memRead sp z a :=
  State.memRead_of_bytes frame.rest.cfg fun b _ => frame.mem sp b (by simp [Covered])

section
variable {rs ps : List Reg} {k : Word} {r : Reg} {f : FlagWrite} {again : Bool}

/-- The move of the pointers and the end of an iteration write the pointers, the count and the flags alone. -/
theorem State.MovedBy.frame_end (moved : u.MovedBy t ps k) :
    u.FrameCore (blockEndState t r f again) (ps ++ [r]) (bitV :: f.bits) .data [] :=
  moved.frame.toFrameCore.trans (frameCore_blockEndState t r f again .data)

theorem State.MovedBy.io_end (moved : u.MovedBy t ps k) : (blockEndState t r f again).io = u.io :=
  (io_blockEndState t r f again).trans moved.frame.io

/-- The frame of a whole iteration whose accesses write the registers `rs` and the bytes `stored`. -/
theorem State.MovedBy.frame_iteration {stored : List Word} (moved : u.MovedBy t ps k)
    (accessed : s.FrameCore u rs [] .data stored) :
    s.FrameCore (blockEndState t r f again) (rs ++ (ps ++ [r])) (bitV :: f.bits) .data stored :=
  (accessed.trans moved.frame_end).mono (fun _ h => h) (fun _ h => h) (by simp)

/-- Registers, V, `reexec` and PC of a whole iteration whose accesses leave the registers `rw0`. -/
theorem State.MovedBy.iterated {rw0 : Reg → Word} (moved : u.MovedBy t ps k) (registers : ∀ n, u.rw n = rw0 n)
    (reexec : u.reexec = s.reexec) (pc : u.pc = s.pc) : s.Iterated (blockEndState t r f again) rw0 ps k r again :=
  iterated_blockEndState s t rw0 ps k r f again (fun n => by rw [moved.regs, registers])
    (moved.frame.reexec.trans reexec) (moved.frame.pc.trans pc)

end

/-- The decode check of two registers other than R0 passes. -/
theorem State.checked_of_both_ne_zero (s : State) {p q : Reg} (hp : p ≠ 0) (hq : q ≠ 0) (k : Result) :
    s.checked (pointerOk p && pointerOk q) k = k :=
  s.checked_of_wf rfl (Bool.and_eq_true_iff.2 ⟨bne_iff_ne.2 hp, bne_iff_ne.2 hq⟩) k

end

section
variable {s : State} {i : Instr} {z : Size} {ios : IoSpace} {down repeats : Bool} {d src r : Reg}

/-! ## Transfer (R505 to R512) -/

theorem movesOne_of_blockMove (hd : d ≠ 0) (hs : src ≠ 0) (ran : exec i s = blockMove z down repeats d src r s) :
    MovesOne z down repeats d src r i s := by
  rw [MovesOne, ← pointerStep_eq]
  obtain ⟨value, stored⟩ := s.memWrite_writes z (s.rw d) (s.memRead .data z (s.rw src))
  have moved := (s.memWrite .data z (s.rw d) (s.memRead .data z (s.rw src))).movedBy_bump_bump src d
    (pointerStep z down)
  exact ⟨_, ran.trans ((s.checked_of_both_ne_zero hd hs _).trans (blockEnd_eq _ r _ _)),
    (moved.frame_end.memRead_eq z _).trans value,
    moved.iterated (s.rw_memWrite .data z _ _) stored.reexec stored.pc,
    moved.frame_iteration stored.toFrameCore, moved.io_end.trans stored.io⟩

/-! ## Compare (R513 to R528) -/

/-- A condition after a comparison is the test of the comparison's own flags. -/
theorem State.holds_setFlags_czsv {w : Nat} (s : State) (p : FlagProfile) (o : AluOut w) (cc : Cc) :
    (s.setFlags (czsv p o)).holds cc = Cc.test o.c o.z o.s o.v cc := by simp [State.holds, czsv]

/-- An iteration that moves its pointers and ends with the flags of a compare: its C and S, and whether its condition
holds, are those that a comparison instruction would leave (R274). -/
theorem comparesOne_of_blockEnd {w : Nat} {a b : BitVec w} {t : State} {ps : List Reg} {k : Word} {cc : Cc} {hit : Bool}
    (moved : s.MovedBy t ps k)
    (test : hit =
      Cc.test (subFlags a b false).c (subFlags a b false).z (subFlags a b false).s (subFlags a b false).v cc)
    (ran : exec i s = blockEnd t r (compareFlags (subFlags a b false) cc) (repeats && !hit)) :
    ComparesOne a b ps k repeats r cc i s := by
  obtain ⟨carry, zero, sign⟩ := flags_blockEndState t r (compareFlags (subFlags a b false) cc) (repeats && !hit)
  exact ⟨_, s.setFlags (czsv s.cfg.flags (subFlags a b false)), hit, ran.trans (blockEnd_eq t r _ _),
    compare_isCompare a b s s.cfg.flags, test.trans (s.holds_setFlags_czsv _ _ cc).symm,
    carry.trans (s.flagC_setFlags (czsv s.cfg.flags (subFlags a b false))).symm,
    sign.trans (s.flagS_setFlags (czsv s.cfg.flags (subFlags a b false))).symm, zero.trans test.symm,
    moved.iterated (fun _ => rfl) rfl rfl,
    moved.frame_end.mono (by simp [or_comm]) (by simp [compareFlags, FlagWrite.bits]) (by simp), moved.io_end⟩

theorem comparesOne_of_blockCompare (z : Size) {k : Word} {cc : Cc} (hs : src ≠ 0)
    (ran : exec i s = blockCompare z down repeats d src r cc s) (move : pointerStep z down = k) :
    ComparesOne (s.reg z d) (s.memRead .data z (s.rw src)) [src] k repeats r cc i s :=
  move ▸ comparesOne_of_blockEnd (s.movedBy_bump src _) rfl (ran.trans (State.checked_of_ne_zero hs _))

theorem comparesOne_of_blockCompareStrings (z : Size) {k : Word} {cc : Cc} (hd : d ≠ 0) (hs : src ≠ 0)
    (ran : exec i s = blockCompareStrings z down repeats d src r cc s) (move : pointerStep z down = k) :
    ComparesOne (s.memRead .data z (s.rw d)) (s.memRead .data z (s.rw src)) [src, d] k repeats r cc i s :=
  move ▸ comparesOne_of_blockEnd (s.movedBy_bump_bump src d _) rfl (ran.trans (s.checked_of_both_ne_zero hd hs _))

/-! ## Translation (R561 to R568) -/

section
variable {table : Reg}

theorem translated_eq_tableByte (s : State) (str table : Reg) : translated s str table = tableByte s str table := by
  rw [translated, tableByte, BitVec.ofNat_toNat]

theorem translatesOne_of_blockTranslate (hd : d ≠ 0) (ht : table ≠ 0)
    (ran : exec i s = blockTranslate down repeats d table r s) : TranslatesOne down repeats d table r i s := by
  rw [TranslatesOne, ← pointerStep_eq, ← translated_eq_tableByte]
  obtain ⟨value, stored⟩ := s.memWrite_writes .b (s.rw d) (translated s d table)
  have moved := (s.memWrite .data .b (s.rw d) (translated s d table)).movedBy_bump d (pointerStep .b down)
  exact ⟨_, ran.trans ((s.checked_of_both_ne_zero hd ht _).trans (blockEnd_eq _ r _ _)),
    (moved.frame_end.memRead_eq .b _).trans value,
    moved.iterated (s.rw_memWrite .data .b _ _) stored.reexec stored.pc,
    moved.frame_iteration stored.toFrameCore, moved.io_end.trans stored.io⟩

/-- RH1 is written first, so it holds the table byte in the end unless the pointer or the count is R1. -/
theorem translateTestsOne_of_blockTranslateTest {str : Reg} (hp : str ≠ 0) (ht : table ≠ 0)
    (ran : exec i s = blockTranslateTest down repeats str table r s) :
    TranslateTestsOne down repeats str table r i s := by
  rw [TranslateTestsOne, ← pointerStep_eq, ← translated_eq_tableByte]
  have written := s.straight_setRb 1 (translated s str table) .data
  have moved := (s.setRb 1 (translated s str table)).movedBy_bump str (pointerStep .b down)
  exact ⟨_, ran.trans ((s.checked_of_both_ne_zero hp ht _).trans (blockEnd_eq _ r _ _)),
    moved.iterated (fun _ => rfl) written.reexec written.pc,
    (flags_blockEndState _ r _ _).2.1,
    fun pointer_ne count_ne =>
      (moved.frame_end.rb_eq (n := 1) (by simpa [byteHome] using ⟨pointer_ne.symm, count_ne.symm⟩)).trans
        (s.rb_setRb_same 1 _),
    (moved.frame_iteration written.toFrameCore).mono (fun _ h => h) (by simp [FlagWrite.bits]) (by simp),
    moved.io_end.trans written.io⟩

end

/-! ## Input and output (R529 to R560) -/

theorem inputsOne_of_blockIn (hd : d ≠ 0) (hs : src ≠ 0) (sys : s.sysMode = true)
    (ran : exec i s = blockIn z ios down repeats d src r s) : InputsOne z ios down repeats d src r i s := by
  rw [InputsOne, ← pointerStep_eq]
  have noted := s.frameCore_noteRead z ios (s.rw src) .data
  obtain ⟨value, stored⟩ := (s.noteRead z ios (s.rw src)).memWrite_writes z (s.rw d) (s.portValue z ios (s.rw src))
  have moved := ((s.noteRead z ios (s.rw src)).memWrite .data z (s.rw d) (s.portValue z ios (s.rw src))).movedBy_bump d
    (pointerStep z down)
  exact ⟨_, s.portValue z ios (s.rw src),
    ran.trans ((s.checked_of_both_ne_zero hd hs _).trans ((s.privileged_of_system sys _).trans (blockEnd_eq _ r _ _))),
    rfl, moved.io_end.trans stored.io, (moved.frame_end.memRead_eq z _).trans value,
    moved.iterated (State.rw_memWrite (s.noteRead z ios (s.rw src)) .data z _ _) stored.reexec stored.pc,
    moved.frame_iteration (noted.trans stored.toFrameCore)⟩

theorem outputsOne_of_blockOut (hd : d ≠ 0) (hs : src ≠ 0) (sys : s.sysMode = true)
    (ran : exec i s = blockOut z ios down repeats d src r s) : OutputsOne z ios down repeats d src r i s := by
  rw [OutputsOne, ← pointerStep_eq]
  have written := s.frameCore_ioWrite z ios (s.rw d) (s.memRead .data z (s.rw src)) .data
  have moved := (s.ioWrite z ios (s.rw d) (s.memRead .data z (s.rw src))).movedBy_bump src (pointerStep z down)
  exact ⟨_,
    ran.trans ((s.checked_of_both_ne_zero hd hs _).trans ((s.privileged_of_system sys _).trans (blockEnd_eq _ r _ _))),
    moved.io_end, moved.iterated (fun _ => rfl) rfl rfl, moved.frame_iteration written⟩

end

/-! ## The statements -/

/-- Settles O45: each form is `blockMove` of its width and direction. -/
theorem blockTransferIteration : Obligations.BlockTransferIteration := by
  intro s d src r hd hs
  and_intros <;> exact movesOne_of_blockMove hd hs rfl

/-- Settles O46: each form is `blockCompare` or `blockCompareStrings` of its width and direction. -/
theorem blockCompareIteration : Obligations.BlockCompareIteration :=
  ⟨fun _ _ _ _ _ hs =>
    ⟨comparesOne_of_blockCompare .w hs rfl rfl, comparesOne_of_blockCompare .w hs rfl rfl,
      comparesOne_of_blockCompare .w hs rfl rfl, comparesOne_of_blockCompare .w hs rfl rfl,
      comparesOne_of_blockCompare .b hs rfl rfl, comparesOne_of_blockCompare .b hs rfl rfl,
      comparesOne_of_blockCompare .b hs rfl rfl, comparesOne_of_blockCompare .b hs rfl rfl⟩,
    fun _ _ _ _ _ hd hs =>
    ⟨comparesOne_of_blockCompareStrings .w hd hs rfl rfl, comparesOne_of_blockCompareStrings .w hd hs rfl rfl,
      comparesOne_of_blockCompareStrings .w hd hs rfl rfl, comparesOne_of_blockCompareStrings .w hd hs rfl rfl,
      comparesOne_of_blockCompareStrings .b hd hs rfl rfl, comparesOne_of_blockCompareStrings .b hd hs rfl rfl,
      comparesOne_of_blockCompareStrings .b hd hs rfl rfl, comparesOne_of_blockCompareStrings .b hd hs rfl rfl⟩⟩

/-- Settles O47: each form is `blockTranslate` or `blockTranslateTest` of its direction. -/
theorem translateIteration : Obligations.TranslateIteration := fun _ _ _ _ hd ht =>
  ⟨translatesOne_of_blockTranslate hd ht rfl, translatesOne_of_blockTranslate hd ht rfl,
    translatesOne_of_blockTranslate hd ht rfl, translatesOne_of_blockTranslate hd ht rfl,
    translateTestsOne_of_blockTranslateTest hd ht rfl, translateTestsOne_of_blockTranslateTest hd ht rfl,
    translateTestsOne_of_blockTranslateTest hd ht rfl, translateTestsOne_of_blockTranslateTest hd ht rfl⟩

/-- Settles O48: past its checks each form is `blockIn` or `blockOut` of its width, port space and direction. -/
theorem blockInputAndOutputIteration : Obligations.BlockInputAndOutputIteration := by
  refine ⟨fun s d src r hd hs sys => ?_, fun s d src r hd hs sys => ?_⟩
  · and_intros <;> exact inputsOne_of_blockIn hd hs sys rfl
  · and_intros <;> exact outputsOne_of_blockOut hd hs sys rfl

end Sys2Proof.Machine
end

section
/-! PROOFS of the statements about `60_exceptions.md`: entries (R600 to R625), divide errors (R606), privilege (R605, R640,
R641), and interrupts at a boundary (R610, R611, R630). -/
namespace Sys2Proof.Machine

/-! ## The entries (R601, R602, R620 to R625) -/

section
variable (s : State)

/-- An entry whose vector is the one of its number: every kind but VI, whose PC may be indexed (R602, R624). -/
theorem State.entered_takeTrap_of_number {k : Trap} (notVi : k ≠ .vi) :
    s.Entered (s.takeTrap k) (s.psap + (4 * k.number + 2)) (s.psap + (4 * k.number + 4)) (k.ident s) := by
  have fcwAt : s.vectorFcwAddr k = s.psap + (4 * k.number + 2) := BitVec.add_assoc _ _ _
  have pcAt : s.vectorPcAddr k = s.psap + (4 * k.number + 4) := by
    cases k with
    | vi => exact absurd rfl notVi
    | _ => exact BitVec.add_assoc _ _ _
  exact fcwAt ▸ pcAt ▸ s.entered_takeTrap k

/-- The entry of a vectored interrupt, its PC by the vector under `P_VI_INDEXED` (R624). -/
theorem State.entered_vi :
    s.Entered (s.takeTrap .vi) (s.psap + 0x1E)
      (s.psap + 0x20 + if s.cfg.viIndexed then BitVec.ofNat 16 (2 * s.viVector.toNat) else 0)
      (some (s.viVector.zeroExtend 16)) := by
  have fcwAt : s.vectorFcwAddr .vi = s.psap + 0x1E := BitVec.add_assoc _ _ _
  have pcAt : s.vectorPcAddr .vi =
      s.psap + 0x20 + if s.cfg.viIndexed then BitVec.ofNat 16 (2 * s.viVector.toNat) else 0 := by
    rw [BitVec.ofNat_mul, BitVec.ofNat_toNat, add_ite, add_zero]
    rfl
  exact fcwAt ▸ pcAt ▸ s.entered_takeTrap .vi

/-- The entry of the privileged-instruction trap, with its vector and no latch changed. -/
theorem State.entersPrivilegedTrap :
    s.Entered (s.takeTrap .priv) (s.psap + 0x0A) (s.psap + 0x0C) none ∧ s.SameLatches (s.takeTrap .priv) :=
  ⟨s.entered_takeTrap_of_number nofun, s.sameLatches_takeTrap nofun nofun nofun⟩

end

/-- Settles O51: every kind enters at the vector of its number, VI at its own, and clears just its own latch
(`latches_takeTrap`). -/
theorem trapEntrySequence : Obligations.TrapEntrySequence := by
  intro s code
  obtain ⟨nmiCleared, viKept, nviKept⟩ := s.latches_takeTrap .nmi
  obtain ⟨nmiKept, viKept', nviCleared⟩ := s.latches_takeTrap .nvi
  obtain ⟨nmiKept', viCleared, nviKept'⟩ := s.latches_takeTrap .vi
  exact ⟨s.entersExtendedTrap, s.entersPrivilegedTrap,
    ⟨s.entered_takeTrap_of_number nofun, s.sameLatches_takeTrap nofun nofun nofun⟩,
    ⟨s.entered_takeTrap_of_number nofun, nmiCleared.trans (Bool.and_false _), viKept.trans (Bool.and_true _),
      nviKept.trans (Bool.and_true _)⟩,
    ⟨s.entered_takeTrap_of_number nofun, nviCleared.trans (Bool.and_false _), viKept'.trans (Bool.and_true _),
      nmiKept.trans (Bool.and_true _)⟩,
    ⟨s.entered_vi, viCleared.trans (Bool.and_false _), nviKept'.trans (Bool.and_true _),
      nmiKept'.trans (Bool.and_true _)⟩⟩

/-! ## Divisions (`41_arithmetic.md` R289, R290; R606) -/

section
variable {s : State} {z : Size}

/-- A register keeps its value when one that shares no word register with it is written. -/
theorem State.reg_setReg_of_apart {n m : Reg} (apart : ∀ k ∈ destRegs z m, k ∉ destRegs z n) (v : z.Val) :
    (s.setReg z n v).reg z m = s.reg z m := by
  have kept : ∀ k ∈ destRegs z m, (s.setReg z n v).rw k = s.rw k := fun k hk =>
    s.rw_setReg_of_not_mem (apart k hk) v
  cases z with
  | b => simp only [State.reg, State.rb, kept (byteHome m) (by simp [destRegs])]
  | w => exact kept m (by simp [destRegs])
  | l => simp only [State.reg, State.rr, kept m (by simp [destRegs]), kept (m + 1) (by simp [destRegs])]

/-- The state after a division of quotient `q` and remainder `m`: the quotient to register `lo`, the remainder to `hi`. -/
def divided (s : State) (z : Size) (hi lo : Reg) (q m : Int) : State :=
  ((s.setReg z lo (BitVec.ofInt z.bits q)).setReg z hi (BitVec.ofInt z.bits m)).setFlags (divFlags q)

/-- The state after DIV or DIVL of `n` by `x`: the divide error of R606, or the quotient and the remainder. -/
def afterDivision (s : State) (z : Size) (hi lo : Reg) (n x : Int) : State :=
  if divError z.bits n x then s.takeTrap .ext else divided s z hi lo (n.tdiv x) (n - n.tdiv x * x)

theorem exec_div {d : Reg} {src : Src .w} (hw : (Instr.div d src).wf = true) :
    exec (.div d src) s = .next (afterDivision s .w d (d + 1) (s.rr d).toInt (Src.value s src).toInt) :=
  s.checked_of_wf (evenOk_and_src d src) hw _

theorem exec_divl {d : Reg} {src : Src .l} (hw : (Instr.divl d src).wf = true) :
    exec (.divl d src) s = .next (afterDivision s .l d (d + 2) (s.rq d).toInt (Src.value s src).toInt) :=
  s.checked_of_wf (quadOk_and_src d src) hw _

/-- A remainder is smaller than a `w`-bit divisor, so it fits `w` bits. -/
theorem IsQuotient.remainder_fits {w : Nat} {n q m : Int} {x : BitVec w} (h : IsQuotient n x.toInt q m) :
    -2 ^ (w - 1) ≤ m ∧ m < 2 ^ (w - 1) := by
  have small := h.small
  have lower := x.le_toInt
  have upper := x.toInt_le
  omega

theorem divided_writes {hi lo : Reg} {rs : List Reg} {q m : Int} (apart : ∀ k ∈ destRegs z lo, k ∉ destRegs z hi)
    (covered : ∀ k ∈ destRegs z lo ++ destRegs z hi, k ∈ rs)
    (qFits : -2 ^ (z.bits - 1) ≤ q ∧ q < 2 ^ (z.bits - 1)) (mFits : -2 ^ (z.bits - 1) ≤ m ∧ m < 2 ^ (z.bits - 1)) :
    ((divided s z hi lo q m).reg z lo).toInt = q ∧ ((divided s z hi lo q m).reg z hi).toInt = m ∧
      (divided s z hi lo q m).flagC = false ∧ (divided s z hi lo q m).flagZ = decide (q = 0) ∧
      (divided s z hi lo q m).flagS = decide (q < 0) ∧ (divided s z hi lo q m).flagV = false ∧
      s.Straight (divided s z hi lo q m) rs [bitC, bitZ, bitS, bitV] .data [] := by
  have width : 0 < z.bits := by cases z <;> decide
  refine ⟨?_, ?_, State.flagC_setFlags _ _, State.flagZ_setFlags _ _, State.flagS_setFlags _ _, State.flagV_setFlags _ _,
    ((s.straight_setReg z lo _ .data).trans (State.straight_setReg_setFlags _ z hi _ _ .data)).mono covered
      (fun _ h => h) (fun _ h => h)⟩
  · rw [divided, State.reg_setFlags, State.reg_setReg_of_apart apart, State.reg_setReg_same]
    exact BitVec.toInt_ofInt_eq_self width qFits.1 qFits.2
  · rw [divided, State.reg_setReg_setFlags]
    exact BitVec.toInt_ofInt_eq_self width mFits.1 mFits.2

theorem afterDivision_of_quotient {hi lo : Reg} {n q m : Int} {x : BitVec z.bits} (h : IsQuotient n x.toInt q m)
    (fits : -2 ^ (z.bits - 1) ≤ q ∧ q < 2 ^ (z.bits - 1)) :
    afterDivision s z hi lo n x.toInt = divided s z hi lo q m := by
  obtain ⟨quotient, remainder⟩ := quotient_unique h
  have noError : divError z.bits n x.toInt = false := by rw [divError_of_quotient h, decide_eq_true fits]; rfl
  rw [afterDivision, noError, quotient, remainder]
  rfl

/-- The divide error of R606: a zero divisor, or a quotient that does not fit. -/
theorem divError_of_zero_or_unfit {w : Nat} {n x : Int}
    (h : x = 0 ∨ ∃ q m, IsQuotient n x q m ∧ (q < -2 ^ (w - 1) ∨ 2 ^ (w - 1) ≤ q)) : divError w n x = true := by
  obtain rfl | ⟨q, m, quotient, unfit⟩ := h
  · rfl
  · rw [divError_of_quotient quotient, decide_eq_false (by omega)]
    rfl

theorem afterDivision_of_zero_or_unfit {hi lo : Reg} {n x : Int}
    (h : x = 0 ∨ ∃ q m, IsQuotient n x q m ∧ (q < -2 ^ (z.bits - 1) ∨ 2 ^ (z.bits - 1) ≤ q)) :
    afterDivision s z hi lo n x = s.takeTrap .ext := if_pos (divError_of_zero_or_unfit h)

end

/-- The quotient of DIVL goes to the word registers that its remainder does not cover. -/
theorem long_halves_apart (d : Reg) : ∀ k ∈ destRegs .l (d + 2), k ∉ destRegs .l d := by revert d; decide

theorem long_halves_covered (d : Reg) : ∀ k ∈ destRegs .l (d + 2) ++ destRegs .l d, k ∈ [d, d + 1, d + 2, d + 3] := by
  revert d; decide

/-- Settles O25: DIV and DIVL are the divide error, or the writes of quotient and remainder to registers of the destination
that share no word. -/
theorem divideOrTrap : Obligations.DivideOrTrap := by
  refine ⟨fun s d src q m hw h lower upper => ?_, fun s d src q m hw h lower upper => ?_,
    fun s d src hw h => ?_, fun s d src hw h => ?_⟩
  · exact ⟨_, (exec_div hw).trans (congrArg _ (afterDivision_of_quotient h ⟨lower, upper⟩)),
      divided_writes (z := .w) (by simp [destRegs]) (by simp [destRegs]) ⟨lower, upper⟩ h.remainder_fits⟩
  · exact ⟨_, (exec_divl hw).trans (congrArg _ (afterDivision_of_quotient h ⟨lower, upper⟩)),
      divided_writes (z := .l) (long_halves_apart d) (long_halves_covered d) ⟨lower, upper⟩ h.remainder_fits⟩
  · exact takesExtendedTrap_of_exec ((exec_div hw).trans (congrArg _ (afterDivision_of_zero_or_unfit h)))
  · exact takesExtendedTrap_of_exec ((exec_divl hw).trans (congrArg _ (afterDivision_of_zero_or_unfit h)))

/-! ## Privilege (R605, R613, R640) -/

/-- Past the decode check, every privileged instruction checks the mode before anything else (R613). -/
theorem exec_of_privileged {i : Instr} {s : State} (privileged : Instr.isPrivileged i = true) (hw : i.wf = true)
    (normal : s.sysMode = false) : exec i s = .next (s.takeTrap .priv) := by
  have trap := s.privileged_of_normal normal
  cases i with
  | halt | di | ei | ldctlRead | ldctlWrite | iret | mset | mres | mbit | mreq | inDir | inbDir | outDir | outbDir | sin
  | sinb | sout | soutb => exact trap _
  | ldps src => exact (s.checked_of_wf (MemOp.legal_eq_wf src) hw _).trans (trap _)
  | inInd _ r | inbInd _ r | outInd r _ | outbInd r _ =>
    exact (s.checked_of_wf (pointerOk_eq_ptrReg r) hw _).trans (trap _)
  | ini | inir | ind | indr | inib | inirb | indb | indrb | sini | sinir | sind | sindr | sinib | sinirb | sindb | sindrb
  | outi | otir | outd | otdr | outib | otirb | outdb | otdrb | souti | sotir | soutd | sotdr | soutib | sotirb | soutdb
  | sotdrb => exact (s.checked_of_wf rfl hw _).trans (trap _)
  | _ => cases privileged

/-- Settles O50: past the decode check, the mode check is the first thing a privileged instruction does. -/
theorem privilegedInstructionsTrapInNormalMode : Obligations.PrivilegedInstructionsTrapInNormalMode :=
  fun _ s privileged hw normal => ⟨_, exec_of_privileged privileged hw normal, s.entersPrivilegedTrap⟩

/-! ## Normal mode (R641) -/

/-- FCW bits 15:8, among them the mode, are the same in both states. -/
def State.SameControl (s t : State) : Prop := ∀ k, 8 ≤ k → t.fcw.getLsbD k = s.fcw.getLsbD k

section
variable {s t u : State}

theorem State.SameControl.of_fcw_eq (h : t.fcw = s.fcw) : s.SameControl t := fun _ _ => h ▸ rfl

/-- The flags are bits 7 to 2. -/
theorem FlagWrite.getLsbD_apply_of_high (f : FlagWrite) (w : Word) {k : Nat} (high : 8 ≤ k) :
    (f.apply w).getLsbD k = w.getLsbD k := by
  rw [f.getLsbD_apply, if_neg (by omega), if_neg (by omega), if_neg (by omega), if_neg (by omega), if_neg (by omega),
    if_neg (by omega)]

theorem State.SameControl.setFlags (h : s.SameControl t) (f : FlagWrite) : s.SameControl (t.setFlags f) :=
  fun k high => (f.getLsbD_apply_of_high t.fcw high).trans (h k high)

theorem State.SameControl.ite {c : Prop} [Decidable c] (ht : s.SameControl t) (hu : s.SameControl u) :
    s.SameControl (if c then t else u) := by
  split
  · exact ht
  · exact hu

@[simp] theorem RegMem.store_fcw (s : State) (z : Size) (v : z.Val) (dst : RegMem) :
    (RegMem.store s z v dst).fcw = s.fcw := by
  cases dst <;> simp [RegMem.store]

@[simp] theorem State.push_fcw (s : State) (r : Reg) (z : Size) (v : z.Val) : (s.push r z v).fcw = s.fcw := by
  simp [State.push]

@[simp] theorem loadRegs_fcw (s : State) (d : Reg) (a : Word) (n : Nat) : (loadRegs s d a n).fcw = s.fcw := by
  induction n generalizing s d a with
  | zero => rfl
  | succ n ih => rw [loadRegs, ih, State.setRw_fcw]

@[simp] theorem storeRegs_fcw (s : State) (r : Reg) (a : Word) (n : Nat) : (storeRegs s r a n).fcw = s.fcw := by
  induction n generalizing s r a with
  | zero => rfl
  | succ n ih => rw [storeRegs, ih, State.writeWord_fcw]

/-- The end of a block iteration writes flags. -/
theorem State.SameControl.blockEnd (h : t.fcw = s.fcw) (r : Reg) (f : FlagWrite) (again : Bool) :
    s.SameControl (blockEndState t r f again) :=
  State.SameControl.setFlags (t := t.bump r (-1)) (.of_fcw_eq ((t.bump_fcw r (-1)).trans h)) _

/-- Every next state a result can answer keeps FCW bits 15:8 or is an entry of a trap other than the system call. -/
def Result.KeepsControl (s : State) (r : Result) : Prop :=
  ∀ t, r = .next t → s.SameControl t ∨ t = s.takeTrap .ext ∨ t = s.takeTrap .priv

variable {k m : Result}

theorem Result.keepsControl_next (h : s.SameControl t) : Result.KeepsControl s (.next t) := fun _ e =>
  .inl (Host.Outcome.next.inj e ▸ h)

theorem Result.keepsControl_ext : Result.KeepsControl s (.next (s.takeTrap .ext)) := fun _ e =>
  .inr (.inl (Host.Outcome.next.inj e).symm)

theorem Result.keepsControl_priv : Result.KeepsControl s (.next (s.takeTrap .priv)) := fun _ e =>
  .inr (.inr (Host.Outcome.next.inj e).symm)

theorem Result.keepsControl_of_fcw_eq (h : t.fcw = s.fcw) : Result.KeepsControl s (.next t) :=
  Result.keepsControl_next (.of_fcw_eq h)

theorem Result.keepsControl_setFlags (h : t.fcw = s.fcw) (f : FlagWrite) : Result.KeepsControl s (.next (t.setFlags f)) :=
  Result.keepsControl_next ((State.SameControl.of_fcw_eq h).setFlags f)

/-- A change of the state on a condition. -/
theorem Result.keepsControl_ite_of_fcw_eq {c : Prop} [Decidable c] (ht : t.fcw = s.fcw) (hu : u.fcw = s.fcw) :
    Result.KeepsControl s (.next (if c then t else u)) :=
  Result.keepsControl_next (.ite (.of_fcw_eq ht) (.of_fcw_eq hu))

theorem Result.keepsControl_blockEnd (h : t.fcw = s.fcw) (r : Reg) (f : FlagWrite) (again : Bool) :
    Result.KeepsControl s (blockEnd t r f again) := by
  rw [blockEnd_eq]
  exact Result.keepsControl_next (.blockEnd h r f again)

theorem Result.keepsControl_ite {c : Prop} [Decidable c] (hk : Result.KeepsControl s k) (hm : Result.KeepsControl s m) :
    Result.KeepsControl s (if c then k else m) := by
  split
  · exact hk
  · exact hm

theorem State.keepsControl_checked {legal : Bool} (h : Result.KeepsControl s k) :
    Result.KeepsControl s (s.checked legal k) := Result.keepsControl_ite h Result.keepsControl_ext

/-- A shift, its count in range or not (R370). -/
theorem State.keepsControl_shift {c : Prop} [Decidable c] (z : Size) (d : Reg) (o : ShiftOut z.bits) (v : Bool) :
    Result.KeepsControl s (s.checked (sizeOk z d) (if c then shiftResult z d o v s else shiftDrawn z d s)) :=
  State.keepsControl_checked (Result.keepsControl_ite (Result.keepsControl_setFlags (s.setReg_fcw z d _) _)
    (Result.keepsControl_setFlags (s.setReg_fcw z d _) _))

theorem keepsControl_afterDivision (z : Size) (hi lo : Reg) (n x : Int) :
    Result.KeepsControl s (.next (afterDivision s z hi lo n x)) := by
  rw [afterDivision]
  split
  · exact Result.keepsControl_ext
  · exact Result.keepsControl_setFlags (by simp) _

end

/-- In normal mode no instruction but SC changes FCW bits 15:8 without a trap: the privileged ones do not run, and of the
others only LDCTLB writes the FCW, keeping its high byte, and otherwise flags are written at most. -/
theorem exec_keepsControl {i : Instr} {s : State} (normal : s.sysMode = false) (notSc : ∀ code, i ≠ .sc code) :
    Result.KeepsControl s (exec i s) := by
  by_cases privileged : Instr.isPrivileged i = true
  · cases hw : i.wf
    · exact exec_of_not_wf s hw ▸ Result.keepsControl_ext
    · exact exec_of_privileged privileged hw normal ▸ Result.keepsControl_priv
  cases i with
  | sc code => exact absurd rfl (notSc code)
  | ldctlbWrite r => exact Result.keepsControl_next (fun _ => getLsbD_hi_append s.fcw (s.rb r))
  | epu page op => exact Result.keepsControl_ite (fun _ => nofun) Result.keepsControl_ext
  | ld | ldb | ldl | ldSt | ldbSt | ldlSt | ldImm | ldbImm | ldrl | ldrlSt | lda | ldm | ldmSt | clr | clrb | ex | exb
  | push | pushl | pop | popl | exts | extsl | set | setb | res | resb | call =>
    exact State.keepsControl_checked (Result.keepsControl_of_fcw_eq (by simp))
  | ldbShort | ldr | ldrb | ldrSt | ldrbSt | ldar | ldk | extsb | setDyn | setbDyn | resDyn | resbDyn | ldctlbRead
  | calr | nop => exact Result.keepsControl_of_fcw_eq (by simp)
  | jp => exact State.keepsControl_checked (Result.keepsControl_ite_of_fcw_eq rfl rfl)
  | jr | ret | djnz | dbjnz | tcc | tccb => exact Result.keepsControl_ite_of_fcw_eq (by simp) (by simp)
  | add | addb | addl | sub | subb | subl | and | andb | or | orb | xor | xorb | cp | cpb | cpl | cpImm | cpbImm | inc
  | incb | dec | decb | neg | negb | com | comb | mult | multl | test | testb | testl | bit | bitb | tset | tsetb =>
    exact State.keepsControl_checked (Result.keepsControl_setFlags (by simp) _)
  | adc | adcb | sbc | sbcb | dab | bitDyn | bitbDyn | rl | rlb | rr | rrb | rlc | rlcb | rrc | rrcb | rldb | rrdb
  | setflg | resflg | comflg => exact Result.keepsControl_setFlags (by simp) _
  | div d src => exact State.keepsControl_checked (keepsControl_afterDivision .w d (d + 1) _ _)
  | divl d src => exact State.keepsControl_checked (keepsControl_afterDivision .l d (d + 2) _ _)
  | slaSra d | sda d | sllSrl d | sdl d => exact State.keepsControl_shift .w d _ _
  | slabSrab d | sdab d | sllbSrlb d | sdlb d => exact State.keepsControl_shift .b d _ _
  | slalSral d | sdal d | slllSrll d | sdll d => exact State.keepsControl_shift .l d _ _
  | ldi | ldir | ldd | lddr | ldib | ldirb | lddb | lddrb | cpi | cpir | cpd | cpdr | cpib | cpirb | cpdb | cpdrb | cpsi
  | cpsir | cpsd | cpsdr | cpsib | cpsirb | cpsdb | cpsdrb | trib | trirb | trdb | trdrb | trtib | trtirb | trtdb
  | trtdrb => exact State.keepsControl_checked (Result.keepsControl_blockEnd (by simp) _ _ _)
  | _ => exact absurd rfl privileged

/-- Settles O54: SC is its own entry, and of the other instructions each keeps the control bits or traps. -/
theorem normalModeIsLeftByTrapsOnly : Obligations.NormalModeIsLeftByTrapsOnly := by
  intro i s t normal ran
  by_cases isSc : ∃ code, i = .sc code
  · obtain ⟨code, rfl⟩ := isSc
    exact .inr (.inr (.inr ⟨code, rfl, (Host.Outcome.next.inj ran).symm⟩))
  · obtain kept | ext | priv := exec_keepsControl normal (not_exists.1 isSc) t ran
    · exact .inl kept
    · exact .inr (.inl ext)
    · exact .inr (.inr (.inl priv))

/-! ## Interrupts at a boundary (R610, R611, R630, R631) -/

section
variable {s : State}

theorem acceptable_of_nmi (nmi : s.nmiPending = true) : s.acceptable = some .nmi := if_pos nmi

theorem acceptable_of_vi (nmi : s.nmiPending = false) (vi : (s.viReq && s.vie) = true) : s.acceptable = some .vi := by
  simp [State.acceptable, nmi, vi]

theorem acceptable_of_nvi (nmi : s.nmiPending = false) (vi : (s.viReq && s.vie) = false)
    (nvi : (s.nviReq && s.nvie) = true) : s.acceptable = some .nvi := by
  simp [State.acceptable, nmi, vi, nvi]

theorem acceptable_eq_none (nmi : s.nmiPending = false) (vi : (s.viReq && s.vie) = false)
    (nvi : (s.nviReq && s.nvie) = false) : s.acceptable = none := by
  simp [State.acceptable, nmi, vi, nvi]

theorem step_of_acceptable {k : Trap} (h : s.acceptable = some k) : step s = .next ((s.takeTrap k).tick s.stepBus) := by
  simp [step, stepOnce, h]

theorem step_of_idle (refused : s.acceptable = none) (halted : s.halt = true) : step s = .next (s.tick []) := by
  rw [← stepBus_of_halted refused halted]
  simp [step, stepOnce, refused, halted]

/-- A tick without accesses moves the two counters alone. -/
theorem State.tick_nil (s : State) :
    s.tick [] = { s with cycles := s.cycles + BitVec.ofNat 64 s.stepCycles, draws := s.draws + 1 } := by
  rw [State.tick, List.append_nil]

end

/-- Settles O52: the requests and enables decide what is acceptable, and that decides the step. -/
theorem boundaryAcceptsOrIdles : Obligations.BoundaryAcceptsOrIdles := by
  refine ⟨fun s => ⟨fun nmi => step_of_acceptable (acceptable_of_nmi nmi),
    fun nmi req enabled => step_of_acceptable (acceptable_of_vi nmi (Bool.and_eq_true_iff.2 ⟨req, enabled⟩)),
    fun nmi vi req enabled => step_of_acceptable
      (acceptable_of_nvi nmi (Bool.and_eq_false_iff.2 vi) (Bool.and_eq_true_iff.2 ⟨req, enabled⟩))⟩,
    fun s halted nmi vi nvi => ?_⟩
  have refused := acceptable_eq_none nmi (Bool.and_eq_false_iff.2 vi) (Bool.and_eq_false_iff.2 nvi)
  exact ⟨_, _, (step_of_idle refused halted).trans (congrArg _ s.tick_nil)⟩

/-- Settles O53: each call is one arm of `setInputLine` or `setIrqVector`; of NMI, only an ASSERT on a CLEAR line is an edge. -/
theorem inputLinesSetTheRequests : Obligations.InputLinesSetTheRequests := by
  intro s v
  refine ⟨rfl, ?_, fun _ => rfl, fun _ => rfl, rfl⟩
  simp only [State.setInputLine, Bool.false_and, Bool.or_false]

end Sys2Proof.Machine
end

section
/-! PROOFS of the statements about `70_reset_and_hazards.md`: reset and the RESET word (R700, `45_system.md` R450), and the
host loop (R721). -/
namespace Sys2Proof.Machine

/-! ## Reset (R50, R700) -/

section
variable {s : State}

theorem step_of_resetWord (ha : s.acceptable = none) (hh : s.halt = false) (hw : ¬ s.NotResetWord) :
    step s = mapNext (fun t => t.tick s.stepBus) (execReset (s.advance 1)) := by
  rw [step_of_running ha hh, runInstr, isResetWord_of_not_notResetWord hw]
  rfl

/-- A RESET word of system mode does what `reset()` does; its accesses are noted at the end of the step. -/
theorem execReset_of_system (sys : s.sysMode = true) :
    execReset (s.advance 1) = .next { s.hostReset with bus := s.bus } :=
  (s.advance 1).privileged_of_system sys _

theorem execReset_of_normal (normal : s.sysMode = false) :
    execReset (s.advance 1) = .next ((s.setPc (s.pc + 2)).takeTrap .priv) :=
  (s.advance 1).privileged_of_normal normal _

end

/-- Settles O58: `reset()` is one record update and the two reads of the vector, which the RESET word makes too, past the
privilege check. -/
theorem resetSequence : Obligations.ResetSequence := by
  refine ⟨fun s => ⟨s.hostReset, rfl, rfl, rfl, rfl, rfl, rfl, rfl, rfl, rfl, rfl, rfl, rfl, rfl, rfl, rfl, rfl, rfl, rfl, rfl,
      congrArg (s.bus ++ ·) (resetBus_eq_resetReads s.cfg)⟩,
    fun s ha hh hw => ⟨fun sys => ?_, fun normal => ?_⟩⟩
  · rw [step_of_resetWord ha hh hw, execReset_of_system sys]
    rfl
  · obtain ⟨entered, nvi, vi, nmi⟩ := (s.setPc (s.pc + 2)).entersPrivilegedTrap
    refine ⟨_, ?_, entered, nvi, vi, nmi⟩
    rw [step_of_resetWord ha hh hw, execReset_of_normal normal]
    rfl

/-! ## The host loop (R721) -/

section
variable {s t : State}

/-- Only the host sets or clears the stop flag. -/
theorem step_stop (h : step s = .next t) : t.stop = s.stop := by
  obtain ⟨u, ⟨keeps, -⟩, -, rfl⟩ := step_does h
  exact keeps.stop

/-- With fuel for more passes than the budget leaves, a running loop is not cut short: every pass uses a cycle at least. -/
theorem runLoop_returns {budget fuel used used' : Nat} (running : s.stop = false) (enough : budget < fuel + used)
    (h : runLoop budget fuel used s = .next (used', t)) : budget ≤ used' ∨ (t.halt = true ∧ t.acceptable = none) := by
  induction fuel generalizing s used with
  | zero =>
    cases h
    exact .inl (by omega)
  | succ fuel ih =>
    rw [runLoop, if_neg (by simp [running])] at h
    split at h
    · next spent =>
      cases h
      exact .inl spent
    · split at h
      · next idle =>
        cases h
        exact .inr (by simpa using idle)
      · split at h
        · next u hu => exact ih ((step_stop hu).trans running) (by rw [State.stepCycles]; omega) h
        · cases h
        · cases h

end

/-- Settles O59: a set stop flag is answered at once; otherwise no step sets it, and the loop goes on until the budget is
used or the core idles (`runLoop_returns`). -/
theorem runReturnsForAStatedReason : Obligations.RunReturnsForAStatedReason := by
  intro s t budget used h
  cases running : s.stop
  · exact .inr (runLoop_returns running (Nat.lt_succ_self budget) h)
  · rw [State.run, runLoop, if_pos running] at h
    cases h
    exact .inl ⟨rfl, rfl, rfl⟩

end Sys2Proof.Machine
end
